-- ==== Sys2Proof/Word.lean ====
section
/-! DEFINITION. The machine word and the small types of the block's devices and operands
(spec/00_scope.md R8, R10; spec/30_encoding.md R54 to R56; spec/70_reset_and_hazards.md R135). -/

namespace Sys2Proof

/-- A register value, `u32` (R8). -/
abbrev Word := BitVec 32

/-- A Button or LED byte (R32, R112). -/
abbrev Byte := BitVec 8

/-- The device classes of the descriptor field `C` (R54): GPIO 00, CSR bank 01, BUTTON 10, LED 11. -/
inductive DevClass where
  | gpio
  | csr
  | button
  | led
deriving DecidableEq, Repr

/-- A device instance: its class and its number among the instances of that class (R16). -/
structure DevRef where
  cls : DevClass
  idx : Nat
deriving DecidableEq, Repr

/-- A legal bus access width: 1, 2 or 4 bytes (R41). -/
inductive Width where
  | w1
  | w2
  | w4
deriving DecidableEq, Repr

/-- The `8n`-bit value of a bus access of `n` bytes (R44, R45, R56): the width and the value at once. -/
inductive BusVal where
  | b8 (v : BitVec 8)
  | b16 (v : BitVec 16)
  | b32 (v : BitVec 32)
deriving DecidableEq, Repr

/-- The access kind that a fault records (R10, R33). -/
inductive AccessKind where
  | read
  | write
deriving DecidableEq, Repr

/-- The identities of a GPIO controller (R16). -/
inductive GpioId where
  | A
  | B
  | GENERIC
deriving DecidableEq, Repr

/-- The ten bus-visible GPIO registers (R38). -/
inductive GpioReg where
  | MODE
  | OTYPE
  | OSPEED
  | PUPD
  | IDR
  | ODR
  | BSRR
  | LCK
  | AFRL
  | AFRH
deriving DecidableEq, Repr

/-- A subscriber of a wire: a sink device and its input pin (R30, R56). A GPIO controller has input
pins 0 to 15, an LED only pin 0. -/
inductive Sink where
  | gpio (k : Nat) (q : Fin 16)
  | led (k : Nat)
deriving DecidableEq, Repr

/-- The names of the persisted fields (R135), in the spec's order. -/
inductive SnapField where
  | mode
  | otype
  | ospeed
  | pupd
  | idr
  | odr
  | odr_old
  | bsr
  | lck
  | afrl
  | afrh
  | reg (m : Fin 14)
  | lastLevel
deriving DecidableEq, Repr

/-- One entry of a persisted-state record: a field's name, its width in bits and its value (R135). -/
structure SnapEntry where
  field : SnapField
  width : Nat
  value : BitVec width
deriving DecidableEq, Repr

/-- A persisted-state record (R135): its entries in order. -/
abbrev Record := List SnapEntry

/-- One request as the host presents it: the descriptor word (R54) and the operands outside it
(R56). A request uses the operands its kind names and no other. -/
structure Request where
  /-- The 32-bit descriptor (R54). -/
  word : BitVec 32
  /-- `dev`, every kind. -/
  dev : DevRef
  /-- `v`, BUS_WRITE: an access of `n` bytes uses the low `8n` bits. -/
  value : Word
  /-- `b`, PIN_IN: an integer level, normalised by the decoder (non-zero is 1). -/
  level : Int
  /-- `sink`, CONNECT. -/
  sink : DevRef
  /-- `q`, CONNECT: the sink's input pin. -/
  sinkPin : Nat
  /-- `byte`, BYTE_IN. -/
  byte : Byte
  /-- `rec`, RESTORE. -/
  fields : Record
deriving DecidableEq, Repr

end Sys2Proof
end

