-- ==== Sys2Proof/Config.lean ====
section
/-! DEFINITION. The parameters that the spec gives the model as arguments (spec/00_scope.md R7;
spec/92_eei_decisions.md D3, D11, D12, D17, D18, D21), as plain data. State holds one `Params` that
no step changes, so that a statement about every state is a statement about every value of the
parameters. `Params.board` is the instantiation `State.reset` uses. -/

namespace Sys2Proof.Config

/-- `NARROW_WRITE` (R45): how a 1- or 2-byte write lands in a 32-bit register. -/
inductive NarrowWrite where
  | zeroExtend
  | merge
deriving DecidableEq, Repr

/-- `GPIO_RESET(id)` for one identity (R27). -/
structure GpioVector where
  mode : Word
  pupd : Word
  ospeed : Word
deriving DecidableEq, Repr

/-- `GPIO_RESET` (R27): one reset vector for each identity. -/
structure GpioResetTable where
  a : GpioVector
  b : GpioVector
  generic : GpioVector
deriving DecidableEq, Repr

/-- `BASE(dev)` and `REGION_SIZE(dev)` (R40). -/
structure Placement where
  base : Nat
  size : Nat
deriving DecidableEq, Repr

/-- The parameters of R7 that are not one device's own. -/
structure Params where
  /-- `NARROW_WRITE` (R45, D3). -/
  narrowWrite : NarrowWrite
  /-- `GPIO_RESET` (R27, D11). -/
  gpioReset : GpioResetTable
  /-- `RCC_RESET` (R29, D12). -/
  rccReset : Vector Word 14
  /-- `RCC_AHBLPENR_OFF / 4` (R29, D12). -/
  ahblpenr : Fin 14
  /-- `HALT_ON_INVALID` (R116, D17). -/
  haltOnInvalid : Bool
  /-- `LEGACY_FIELD` (R136, D21): the one field, of one device class, that a record may leave out. -/
  legacyField : Option (DevClass × SnapField)
  /-- `SNAP_LEVEL_WIDTH` (R135, D21): the width of a persisted `lastLevel`. -/
  snapLevelWidth : Nat
deriving DecidableEq, Repr

/-- The AHBLPENR reset value (R29): the one CSR reset constant the spec gives. -/
def ahblpenrReset : Word := 0x0101903F#32

/-- What the spec asks of the parameters: the constraint of R29, and a persisted level wide enough to
hold a level. -/
abbrev Params.wf (p : Params) : Prop :=
  p.rccReset[p.ahblpenr] = ahblpenrReset ∧ 1 ≤ p.snapLevelWidth

/-- PRESUMED (log 4): the suggested instantiation of R27, the STM32L1 family's reset values. -/
def gpioResetBoard : GpioResetTable where
  a := ⟨0xA8000000#32, 0x64000000#32, 0x0C000000#32⟩
  b := ⟨0x00000280#32, 0x00000100#32, 0x000000C0#32⟩
  generic := ⟨0#32, 0#32, 0#32⟩

/-- PRESUMED (log 4), AHBLPENR's value excepted (R29): the STM32L1 family's reset values, in the
order of R28's labels. -/
def rccResetBoard : Vector Word 14 :=
  #v[0x00000300#32, 0x0000B000#32, 0#32, 0#32, 0#32, 0#32, 0#32, 0x00008000#32, 0#32, 0#32,
    ahblpenrReset, 0x0000521D#32, 0xB0E64A37#32, 0x0C000000#32]

/-- The instantiation at reset: the spec's default for `NARROW_WRITE` (D3); the others PRESUMED (log 4)
or DESIGN CHOICE (logs 5 and 6). -/
def Params.board : Params where
  narrowWrite := .zeroExtend
  gpioReset := gpioResetBoard
  rccReset := rccResetBoard
  ahblpenr := 10
  haltOnInvalid := false
  legacyField := none
  snapLevelWidth := 8

/-- PRESUMED (log 7): the suggested STM32L1 placements of R40. -/
def placeGpioA : Placement := ⟨0x40020000, 0x400⟩

/-- PRESUMED (log 7). -/
def placeGpioB : Placement := ⟨0x40020400, 0x400⟩

/-- PRESUMED (log 7). -/
def placeRcc : Placement := ⟨0x40023800, 0x400⟩

/-- DESIGN CHOICE (log 7): no bus region for a Button or an LED, whose placement the spec does not
suggest. -/
def placeNone : Placement := ⟨0, 0⟩

end Sys2Proof.Config
end

