-- ==== Sys2Proof/Syntax.lean ====
section
/-! DEFINITION. The requests of the block: one constructor for each row of spec/opcode_table.json,
with the operands of spec/30_encoding.md R54 and R56 that the row leaves free. `k` is the number of
the target device among those of its class (`dev`, R56). -/

namespace Sys2Proof

/-- A request the block gives a meaning (R59). -/
inductive Instr where
  /-- GPIO.RD.MODE (R64). -/
  | gpioRdMode (k : Nat) (n : Width)
  /-- GPIO.WR.MODE (R65). -/
  | gpioWrMode (k : Nat) (v : BusVal)
  /-- GPIO.RD.OTYPE (R66). -/
  | gpioRdOtype (k : Nat) (n : Width)
  /-- GPIO.WR.OTYPE (R67). -/
  | gpioWrOtype (k : Nat) (v : BusVal)
  /-- GPIO.RD.OSPEED (R68). -/
  | gpioRdOspeed (k : Nat) (n : Width)
  /-- GPIO.WR.OSPEED (R69). -/
  | gpioWrOspeed (k : Nat) (v : BusVal)
  /-- GPIO.RD.PUPD (R70). -/
  | gpioRdPupd (k : Nat) (n : Width)
  /-- GPIO.WR.PUPD (R71). -/
  | gpioWrPupd (k : Nat) (v : BusVal)
  /-- GPIO.RD.IDR (R80). -/
  | gpioRdIdr (k : Nat) (n : Width)
  /-- GPIO.WR.IDR (R81). -/
  | gpioWrIdr (k : Nat) (v : BusVal)
  /-- GPIO.RD.ODR (R82). -/
  | gpioRdOdr (k : Nat) (n : Width)
  /-- GPIO.WR.ODR (R83). -/
  | gpioWrOdr (k : Nat) (v : BusVal)
  /-- GPIO.RD.BSRR (R84). -/
  | gpioRdBsrr (k : Nat) (n : Width)
  /-- GPIO.WR.BSRR (R85). -/
  | gpioWrBsrr (k : Nat) (v : BusVal)
  /-- GPIO.RD.LCK (R72). -/
  | gpioRdLck (k : Nat) (n : Width)
  /-- GPIO.WR.LCK (R73). -/
  | gpioWrLck (k : Nat) (v : BusVal)
  /-- GPIO.RD.AFRL (R74). -/
  | gpioRdAfrl (k : Nat) (n : Width)
  /-- GPIO.WR.AFRL (R75). -/
  | gpioWrAfrl (k : Nat) (v : BusVal)
  /-- GPIO.RD.AFRH (R76). -/
  | gpioRdAfrh (k : Nat) (n : Width)
  /-- GPIO.WR.AFRH (R77). -/
  | gpioWrAfrh (k : Nat) (v : BusVal)
  /-- CSR.RD.REG0 (R88). -/
  | csrRdReg0 (k : Nat) (n : Width)
  /-- CSR.WR.REG0 (R89). -/
  | csrWrReg0 (k : Nat) (v : BusVal)
  /-- CSR.RD.REG1 (R88). -/
  | csrRdReg1 (k : Nat) (n : Width)
  /-- CSR.WR.REG1 (R89). -/
  | csrWrReg1 (k : Nat) (v : BusVal)
  /-- CSR.RD.REG2 (R88). -/
  | csrRdReg2 (k : Nat) (n : Width)
  /-- CSR.WR.REG2 (R89). -/
  | csrWrReg2 (k : Nat) (v : BusVal)
  /-- CSR.RD.REG3 (R88). -/
  | csrRdReg3 (k : Nat) (n : Width)
  /-- CSR.WR.REG3 (R89). -/
  | csrWrReg3 (k : Nat) (v : BusVal)
  /-- CSR.RD.REG4 (R88). -/
  | csrRdReg4 (k : Nat) (n : Width)
  /-- CSR.WR.REG4 (R89). -/
  | csrWrReg4 (k : Nat) (v : BusVal)
  /-- CSR.RD.REG5 (R88). -/
  | csrRdReg5 (k : Nat) (n : Width)
  /-- CSR.WR.REG5 (R89). -/
  | csrWrReg5 (k : Nat) (v : BusVal)
  /-- CSR.RD.REG6 (R88). -/
  | csrRdReg6 (k : Nat) (n : Width)
  /-- CSR.WR.REG6 (R89). -/
  | csrWrReg6 (k : Nat) (v : BusVal)
  /-- CSR.RD.REG7 (R88). -/
  | csrRdReg7 (k : Nat) (n : Width)
  /-- CSR.WR.REG7 (R89). -/
  | csrWrReg7 (k : Nat) (v : BusVal)
  /-- CSR.RD.REG8 (R88). -/
  | csrRdReg8 (k : Nat) (n : Width)
  /-- CSR.WR.REG8 (R89). -/
  | csrWrReg8 (k : Nat) (v : BusVal)
  /-- CSR.RD.REG9 (R88). -/
  | csrRdReg9 (k : Nat) (n : Width)
  /-- CSR.WR.REG9 (R89). -/
  | csrWrReg9 (k : Nat) (v : BusVal)
  /-- CSR.RD.REG10 (R88). -/
  | csrRdReg10 (k : Nat) (n : Width)
  /-- CSR.WR.REG10 (R89). -/
  | csrWrReg10 (k : Nat) (v : BusVal)
  /-- CSR.RD.REG11 (R88). -/
  | csrRdReg11 (k : Nat) (n : Width)
  /-- CSR.WR.REG11 (R89). -/
  | csrWrReg11 (k : Nat) (v : BusVal)
  /-- CSR.RD.REG12 (R88). -/
  | csrRdReg12 (k : Nat) (n : Width)
  /-- CSR.WR.REG12 (R89). -/
  | csrWrReg12 (k : Nat) (v : BusVal)
  /-- CSR.RD.REG13 (R88). -/
  | csrRdReg13 (k : Nat) (n : Width)
  /-- CSR.WR.REG13 (R89). -/
  | csrWrReg13 (k : Nat) (v : BusVal)
  /-- BUS.BADWIDTH: a bus access with width code 11 (R58 step 3). -/
  | busBadwidth (kind : AccessKind) (dev : DevRef) (off : BitVec 16)
  /-- BUS.INVALID_OFFSET: a bus access that names no register (R58 steps 2 and 5). -/
  | busInvalidOffset (kind : AccessKind) (wc : BitVec 2) (dev : DevRef) (off : BitVec 16)
  /-- RESET.GPIO (R129). -/
  | resetGpio (k : Nat)
  /-- RESET.CSR (R130). -/
  | resetCsr (k : Nat)
  /-- RESET.BUTTON (R131). -/
  | resetButton (k : Nat)
  /-- RESET.LED (R131). -/
  | resetLed (k : Nat)
  /-- PIN_IN.GPIO (R86). -/
  | pinInGpio (k : Nat) (pin : Fin 16) (b : Bool)
  /-- PIN_IN.LED (R113). -/
  | pinInLed (k : Nat) (b : Bool)
  /-- CONNECT.GPIO (R108). -/
  | connectGpio (k : Nat) (p : Fin 64) (sink : Sink)
  /-- CONNECT.BUTTON (R108). -/
  | connectButton (k : Nat) (sink : Sink)
  /-- BYTE_IN.BUTTON (R112). -/
  | byteInButton (k : Nat) (x : Byte)
  /-- SAVE (R135). -/
  | save (dev : DevRef)
  /-- RESTORE (R136). -/
  | restore (dev : DevRef) (fields : Record)
deriving DecidableEq, Repr

end Sys2Proof
end

