-- ==== Sys2Proof/WellFormed.lean ====
section
/-! DEFINITION. The defined register sets (spec/20_memory.md R38, R39, R41) and the checks on a request
that its type does not make. Pins, endpoints, widths and levels are in range by their types; what is
left is that a bus-fault row is used only for an access the row stands for (spec/30_encoding.md R58). -/

namespace Sys2Proof

/-- `DEF_GPIO` (R38). -/
def defGpio : List (BitVec 16) :=
  [0x00, 0x04, 0x08, 0x0C, 0x10, 0x14, 0x18, 0x1C, 0x20, 0x24]

/-- `DEF_RCC` (R39). -/
def defRcc : List (BitVec 16) :=
  [0x00, 0x04, 0x08, 0x0C, 0x10, 0x14, 0x18, 0x1C, 0x20, 0x24, 0x28, 0x2C, 0x30, 0x34]

/-- `DEF(dev)` of R41: the defined offsets of a device of class `c`; a Button and an LED have none
(R37). -/
def defOffsets (c : DevClass) : List (BitVec 16) :=
  match c with
  | .gpio => defGpio
  | .csr => defRcc
  | .button => []
  | .led => []

/-- Step 2 of R58 does not claim the class: it is a class with registers. -/
def hasRegisters (c : DevClass) : Bool := c == .gpio || c == .csr

/-- The checks of a request's own form. A BUS.BADWIDTH request goes to a device with registers (R58
steps 2 and 3); a BUS.INVALID_OFFSET request goes to a device without registers, or has a legal width
code and names no defined register (R58 steps 2 and 5). -/
def Instr.wellFormed (i : Instr) : Bool :=
  match i with
  | .busBadwidth _ dev _ => hasRegisters dev.cls
  | .busInvalidOffset _ wc dev off =>
    !hasRegisters dev.cls || (wc != 3#2 && !(defOffsets dev.cls).contains off)
  | .gpioRdMode .. | .gpioWrMode ..
  | .gpioRdOtype .. | .gpioWrOtype ..
  | .gpioRdOspeed .. | .gpioWrOspeed ..
  | .gpioRdPupd .. | .gpioWrPupd ..
  | .gpioRdIdr .. | .gpioWrIdr ..
  | .gpioRdOdr .. | .gpioWrOdr ..
  | .gpioRdBsrr .. | .gpioWrBsrr ..
  | .gpioRdLck .. | .gpioWrLck ..
  | .gpioRdAfrl .. | .gpioWrAfrl ..
  | .gpioRdAfrh .. | .gpioWrAfrh ..
  | .csrRdReg0 .. | .csrWrReg0 ..
  | .csrRdReg1 .. | .csrWrReg1 ..
  | .csrRdReg2 .. | .csrWrReg2 ..
  | .csrRdReg3 .. | .csrWrReg3 ..
  | .csrRdReg4 .. | .csrWrReg4 ..
  | .csrRdReg5 .. | .csrWrReg5 ..
  | .csrRdReg6 .. | .csrWrReg6 ..
  | .csrRdReg7 .. | .csrWrReg7 ..
  | .csrRdReg8 .. | .csrWrReg8 ..
  | .csrRdReg9 .. | .csrWrReg9 ..
  | .csrRdReg10 .. | .csrWrReg10 ..
  | .csrRdReg11 .. | .csrWrReg11 ..
  | .csrRdReg12 .. | .csrWrReg12 ..
  | .csrRdReg13 .. | .csrWrReg13 ..
  | .resetGpio .. | .resetCsr .. | .resetButton .. | .resetLed ..
  | .pinInGpio .. | .pinInLed .. | .connectGpio .. | .connectButton .. | .byteInButton ..
  | .save .. | .restore .. => true

end Sys2Proof
end

