-- ==== Sys2Proof/Decode.lean ====
section
/-! DEFINITION. The decoder of a presented request (spec/30_encoding.md R54 to R60), total on every
request and refusing by name, and after it the encoder and the rows of spec/opcode_table.json. -/

namespace Sys2Proof

/-- Why a request is refused at decode (R58 steps 1 and 6, R60). No such request has a meaning in the
spec; refusing it is safe. -/
inductive DecodeError where
  /-- `K` in 0x8 to 0xF (R60). -/
  | reservedKind
  /-- `Z` is not 0 (R60). -/
  | reservedBits
  /-- `dev` is of a class other than `C` (R60). -/
  | classMismatch
  /-- `Wc` is not 00 on a kind that is not a bus kind (R60). -/
  | widthOnControl
  /-- `A` is not 0 on a kind that has no offset and no pin (R54, R58 step 6). -/
  | argNotZero
  /-- A device class that has no such endpoint (R60). -/
  | noEndpoint
  /-- A pin or endpoint index the device does not have (R60). -/
  | pinOutOfRange
  /-- A CONNECT whose sink is not a GPIO pin 0 to 15 or an LED pin 0 (R56). -/
  | badSink
deriving DecidableEq, Repr

/-! ### The fields of the descriptor (R54, R57) -/

/-- `K`, bits 31:28. -/
def Request.kindBits (r : Request) : BitVec 4 := r.word.extractLsb' 28 4

/-- `Wc`, bits 27:26. -/
def Request.wcBits (r : Request) : BitVec 2 := r.word.extractLsb' 26 2

/-- `C`, bits 25:24. -/
def Request.clsBits (r : Request) : BitVec 2 := r.word.extractLsb' 24 2

/-- `Z`, bits 23:16. -/
def Request.zBits (r : Request) : BitVec 8 := r.word.extractLsb' 16 8

/-- `A`, bits 15:0. -/
def Request.argBits (r : Request) : BitVec 16 := r.word.extractLsb' 0 16

/-- The descriptor word of the given fields (R54). -/
def mkWord (k : BitVec 4) (wc c : BitVec 2) (z : BitVec 8) (a : BitVec 16) : BitVec 32 :=
  k ++ wc ++ c ++ z ++ a

/-- The device class a class code stands for (R54). -/
def DevClass.ofBits (c : BitVec 2) : DevClass :=
  match c.toNat with
  | 0 => .gpio
  | 1 => .csr
  | 2 => .button
  | _ => .led

/-- The class code of a device class (R54). -/
def DevClass.bits (c : DevClass) : BitVec 2 :=
  match c with
  | .gpio => 0#2
  | .csr => 1#2
  | .button => 2#2
  | .led => 3#2

/-- The width a width code stands for; code 11 is no width (R57). -/
def Width.ofBits (wc : BitVec 2) : Option Width :=
  match wc.toNat with
  | 0 => some .w1
  | 1 => some .w2
  | 2 => some .w4
  | _ => none

/-- The width code of a width (R54). -/
def Width.bits (n : Width) : BitVec 2 :=
  match n with
  | .w1 => 0#2
  | .w2 => 1#2
  | .w4 => 2#2

/-- The number of bytes of a width (R57: `n = 1 << Wc`). -/
def Width.bytes (n : Width) : Nat :=
  match n with
  | .w1 => 1
  | .w2 => 2
  | .w4 => 4

/-- The low `8n` bits of a word as a bus value (R44, R56). -/
def BusVal.ofWord (n : Width) (w : Word) : BusVal :=
  match n with
  | .w1 => .b8 (w.setWidth 8)
  | .w2 => .b16 (w.setWidth 16)
  | .w4 => .b32 w

/-- The width of a bus value. -/
def BusVal.width (v : BusVal) : Width :=
  match v with
  | .b8 _ => .w1
  | .b16 _ => .w2
  | .b32 _ => .w4

/-- `zext_32` of a bus value (R45). -/
def BusVal.zext (v : BusVal) : Word :=
  match v with
  | .b8 x => x.setWidth 32
  | .b16 x => x.setWidth 32
  | .b32 x => x

/-- The code of an access kind in `K` (R55). -/
def AccessKind.bits (k : AccessKind) : BitVec 4 :=
  match k with
  | .read => 0#4
  | .write => 1#4

/-! ### Decoding (R58, R59) -/

/-- Steps 4 and 5 of R58 for a read with a legal width. -/
def decodeRead (wc : BitVec 2) (n : Width) (dev : DevRef) (off : BitVec 16) : Instr :=
  match dev.cls with
  | .gpio =>
    match off.toNat with
    | 0x00 => .gpioRdMode dev.idx n
    | 0x04 => .gpioRdOtype dev.idx n
    | 0x08 => .gpioRdOspeed dev.idx n
    | 0x0C => .gpioRdPupd dev.idx n
    | 0x10 => .gpioRdIdr dev.idx n
    | 0x14 => .gpioRdOdr dev.idx n
    | 0x18 => .gpioRdBsrr dev.idx n
    | 0x1C => .gpioRdLck dev.idx n
    | 0x20 => .gpioRdAfrl dev.idx n
    | 0x24 => .gpioRdAfrh dev.idx n
    | _ => .busInvalidOffset .read wc dev off
  | .csr =>
    match off.toNat with
    | 0x00 => .csrRdReg0 dev.idx n
    | 0x04 => .csrRdReg1 dev.idx n
    | 0x08 => .csrRdReg2 dev.idx n
    | 0x0C => .csrRdReg3 dev.idx n
    | 0x10 => .csrRdReg4 dev.idx n
    | 0x14 => .csrRdReg5 dev.idx n
    | 0x18 => .csrRdReg6 dev.idx n
    | 0x1C => .csrRdReg7 dev.idx n
    | 0x20 => .csrRdReg8 dev.idx n
    | 0x24 => .csrRdReg9 dev.idx n
    | 0x28 => .csrRdReg10 dev.idx n
    | 0x2C => .csrRdReg11 dev.idx n
    | 0x30 => .csrRdReg12 dev.idx n
    | 0x34 => .csrRdReg13 dev.idx n
    | _ => .busInvalidOffset .read wc dev off
  | .button => .busInvalidOffset .read wc dev off
  | .led => .busInvalidOffset .read wc dev off

/-- Steps 4 and 5 of R58 for a write of the value `v`. -/
def decodeWrite (wc : BitVec 2) (v : BusVal) (dev : DevRef) (off : BitVec 16) : Instr :=
  match dev.cls with
  | .gpio =>
    match off.toNat with
    | 0x00 => .gpioWrMode dev.idx v
    | 0x04 => .gpioWrOtype dev.idx v
    | 0x08 => .gpioWrOspeed dev.idx v
    | 0x0C => .gpioWrPupd dev.idx v
    | 0x10 => .gpioWrIdr dev.idx v
    | 0x14 => .gpioWrOdr dev.idx v
    | 0x18 => .gpioWrBsrr dev.idx v
    | 0x1C => .gpioWrLck dev.idx v
    | 0x20 => .gpioWrAfrl dev.idx v
    | 0x24 => .gpioWrAfrh dev.idx v
    | _ => .busInvalidOffset .write wc dev off
  | .csr =>
    match off.toNat with
    | 0x00 => .csrWrReg0 dev.idx v
    | 0x04 => .csrWrReg1 dev.idx v
    | 0x08 => .csrWrReg2 dev.idx v
    | 0x0C => .csrWrReg3 dev.idx v
    | 0x10 => .csrWrReg4 dev.idx v
    | 0x14 => .csrWrReg5 dev.idx v
    | 0x18 => .csrWrReg6 dev.idx v
    | 0x1C => .csrWrReg7 dev.idx v
    | 0x20 => .csrWrReg8 dev.idx v
    | 0x24 => .csrWrReg9 dev.idx v
    | 0x28 => .csrWrReg10 dev.idx v
    | 0x2C => .csrWrReg11 dev.idx v
    | 0x30 => .csrWrReg12 dev.idx v
    | 0x34 => .csrWrReg13 dev.idx v
    | _ => .busInvalidOffset .write wc dev off
  | .button => .busInvalidOffset .write wc dev off
  | .led => .busInvalidOffset .write wc dev off

/-- Steps 2 to 5 of R58: the bus kinds. `dev` is of the descriptor's class. -/
def decodeBus (kind : AccessKind) (r : Request) : Instr :=
  if hasRegisters r.dev.cls then
    match Width.ofBits r.wcBits with
    | none => .busBadwidth kind r.dev r.argBits
    | some n =>
      match kind with
      | .read => decodeRead r.wcBits n r.dev r.argBits
      | .write => decodeWrite r.wcBits (BusVal.ofWord n r.value) r.dev r.argBits
  else .busInvalidOffset kind r.wcBits r.dev r.argBits

/-- The sink operand of a CONNECT (R56). -/
def decodeSink (r : Request) : Option Sink :=
  match r.sink.cls with
  | .gpio => if h : r.sinkPin < 16 then some (.gpio r.sink.idx ⟨r.sinkPin, h⟩) else none
  | .led => if r.sinkPin = 0 then some (.led r.sink.idx) else none
  | .csr => none
  | .button => none

/-- RESET (R58 step 6, R59). -/
def decodeReset (r : Request) : Except DecodeError Instr :=
  if r.argBits = 0#16 then
    match r.dev.cls with
    | .gpio => .ok (.resetGpio r.dev.idx)
    | .csr => .ok (.resetCsr r.dev.idx)
    | .button => .ok (.resetButton r.dev.idx)
    | .led => .ok (.resetLed r.dev.idx)
  else .error .argNotZero

/-- PIN_IN (R58 step 6, R59); an integer level is normalised (R56, D9). -/
def decodePinIn (r : Request) : Except DecodeError Instr :=
  match r.dev.cls with
  | .gpio =>
    if h : r.argBits.toNat < 16 then
      .ok (.pinInGpio r.dev.idx ⟨r.argBits.toNat, h⟩ (decide (r.level ≠ 0)))
    else .error .pinOutOfRange
  | .led =>
    if r.argBits = 0#16 then .ok (.pinInLed r.dev.idx (decide (r.level ≠ 0)))
    else .error .pinOutOfRange
  | .csr => .error .noEndpoint
  | .button => .error .noEndpoint

/-- CONNECT (R58 step 6, R59). -/
def decodeConnect (r : Request) : Except DecodeError Instr :=
  match r.dev.cls with
  | .gpio =>
    if h : r.argBits.toNat < 64 then
      match decodeSink r with
      | some k => .ok (.connectGpio r.dev.idx ⟨r.argBits.toNat, h⟩ k)
      | none => .error .badSink
    else .error .pinOutOfRange
  | .button =>
    if r.argBits = 0#16 then
      match decodeSink r with
      | some k => .ok (.connectButton r.dev.idx k)
      | none => .error .badSink
    else .error .pinOutOfRange
  | .csr => .error .noEndpoint
  | .led => .error .noEndpoint

/-- BYTE_IN (R58 step 6, R59). -/
def decodeByteIn (r : Request) : Except DecodeError Instr :=
  match r.dev.cls with
  | .button =>
    if r.argBits = 0#16 then .ok (.byteInButton r.dev.idx r.byte) else .error .argNotZero
  | .gpio => .error .noEndpoint
  | .csr => .error .noEndpoint
  | .led => .error .noEndpoint

/-- SAVE (R59). -/
def decodeSave (r : Request) : Except DecodeError Instr :=
  if r.argBits = 0#16 then .ok (.save r.dev) else .error .argNotZero

/-- RESTORE (R59). -/
def decodeRestore (r : Request) : Except DecodeError Instr :=
  if r.argBits = 0#16 then .ok (.restore r.dev r.fields) else .error .argNotZero

/-- Step 6 of R58: the kinds that are not bus kinds. -/
def decodeControl (r : Request) : Except DecodeError Instr :=
  if r.wcBits = 0#2 then
    match r.kindBits.toNat with
    | 2 => decodeReset r
    | 3 => decodePinIn r
    | 4 => decodeConnect r
    | 5 => decodeByteIn r
    | 6 => decodeSave r
    | 7 => decodeRestore r
    | _ => .error .reservedKind
  else .error .widthOnControl

/-- The decoder (R58): the refusals of step 1 and of a wrong device class (R60, R119) first, then the
bus kinds, then the others. -/
def decode (r : Request) : Except DecodeError Instr :=
  if 8#4 ≤ r.kindBits then .error .reservedKind
  else if r.zBits ≠ 0#8 then .error .reservedBits
  else if r.dev.cls ≠ DevClass.ofBits r.clsBits then .error .classMismatch
  else
    match r.kindBits.toNat with
    | 0 => .ok (decodeBus .read r)
    | 1 => .ok (decodeBus .write r)
    | _ => decodeControl r

/-! ### A bare descriptor word -/

/-- A register field of a persisted record with the value 0 (R135). -/
def zeroEntry (f : SnapField) : SnapEntry := ⟨f, 32, 0#32⟩

/-- The numbers of the 14 CSR registers, in offset order (R28). -/
def csrNumbers : List (Fin 14) := [0, 1, 2, 3, 4, 5, 6, 7, 8, 9, 10, 11, 12, 13]

/-- The names of the persisted GPIO fields, in the spec's order (R135). -/
def gpioFields : List SnapField :=
  [.mode, .otype, .ospeed, .pupd, .idr, .odr, .odr_old, .bsr, .lck, .afrl, .afrh]

/-- The record of a device of class `c` with every field 0 (R135), `lw` the width of a level. -/
def zeroRecord (lw : Nat) (c : DevClass) : Record :=
  match c with
  | .gpio => gpioFields.map zeroEntry
  | .csr => csrNumbers.map fun m => zeroEntry (.reg m)
  | .button => [⟨.lastLevel, lw, 0#lw⟩]
  | .led => [⟨.lastLevel, lw, 0#lw⟩]

/-- The request of a bare descriptor word: every operand that is a number is 0, `dev` is the first
instance of the descriptor's class, a sink is pin 0 of the first GPIO controller, and a record holds
zeros (log 2). -/
def Request.ofWord (lw : Nat) (w : BitVec 32) : Request :=
  let c := DevClass.ofBits (w.extractLsb' 24 2)
  { word := w
    dev := ⟨c, 0⟩
    value := 0#32
    level := 0
    sink := ⟨.gpio, 0⟩
    sinkPin := 0
    byte := 0#8
    fields := zeroRecord lw c }

/-- The descriptor word of an instruction of `nbits` bits whose bits are `w`; bits above `nbits` are
0, and a descriptor has 32 (R54). -/
def wordOfBits (nbits w : Nat) : BitVec 32 := BitVec.ofNat 32 (w % 2 ^ nbits)

/-- The instruction the decoder reads from a bare descriptor word, with the operands of
`Request.ofWord`. -/
def decodeTableWord (nbits w : Nat) : Option Instr :=
  (decode (Request.ofWord 8 (wordOfBits nbits w))).toOption

/-! ### The encoder (R54, R59) -/

/-- A request with the given descriptor fields and device, its other operands 0. -/
def Request.bare (k : BitVec 4) (wc : BitVec 2) (dev : DevRef) (a : BitVec 16) : Request where
  word := mkWord k wc dev.cls.bits 0#8 a
  dev := dev
  value := 0#32
  level := 0
  sink := ⟨.gpio, 0⟩
  sinkPin := 0
  byte := 0#8
  fields := []

/-- A bus read of a defined register. -/
def encodeRead (c : DevClass) (k : Nat) (n : Width) (off : BitVec 16) : Request :=
  Request.bare 0#4 n.bits ⟨c, k⟩ off

/-- A bus write of a defined register. -/
def encodeWrite (c : DevClass) (k : Nat) (v : BusVal) (off : BitVec 16) : Request :=
  { Request.bare 1#4 v.width.bits ⟨c, k⟩ off with value := v.zext }

/-- A CONNECT of the given source and sink. -/
def encodeConnect (dev : DevRef) (a : BitVec 16) (sink : Sink) : Request :=
  match sink with
  | .gpio k q => { Request.bare 4#4 0#2 dev a with sink := ⟨.gpio, k⟩, sinkPin := q.val }
  | .led k => { Request.bare 4#4 0#2 dev a with sink := ⟨.led, k⟩, sinkPin := 0 }

/-- The request of an instruction: its descriptor word (R59) and its operands (R56). -/
def encode (i : Instr) : Request :=
  match i with
  | .gpioRdMode k n => encodeRead .gpio k n 0x00#16
  | .gpioWrMode k v => encodeWrite .gpio k v 0x00#16
  | .gpioRdOtype k n => encodeRead .gpio k n 0x04#16
  | .gpioWrOtype k v => encodeWrite .gpio k v 0x04#16
  | .gpioRdOspeed k n => encodeRead .gpio k n 0x08#16
  | .gpioWrOspeed k v => encodeWrite .gpio k v 0x08#16
  | .gpioRdPupd k n => encodeRead .gpio k n 0x0C#16
  | .gpioWrPupd k v => encodeWrite .gpio k v 0x0C#16
  | .gpioRdIdr k n => encodeRead .gpio k n 0x10#16
  | .gpioWrIdr k v => encodeWrite .gpio k v 0x10#16
  | .gpioRdOdr k n => encodeRead .gpio k n 0x14#16
  | .gpioWrOdr k v => encodeWrite .gpio k v 0x14#16
  | .gpioRdBsrr k n => encodeRead .gpio k n 0x18#16
  | .gpioWrBsrr k v => encodeWrite .gpio k v 0x18#16
  | .gpioRdLck k n => encodeRead .gpio k n 0x1C#16
  | .gpioWrLck k v => encodeWrite .gpio k v 0x1C#16
  | .gpioRdAfrl k n => encodeRead .gpio k n 0x20#16
  | .gpioWrAfrl k v => encodeWrite .gpio k v 0x20#16
  | .gpioRdAfrh k n => encodeRead .gpio k n 0x24#16
  | .gpioWrAfrh k v => encodeWrite .gpio k v 0x24#16
  | .csrRdReg0 k n => encodeRead .csr k n 0x00#16
  | .csrWrReg0 k v => encodeWrite .csr k v 0x00#16
  | .csrRdReg1 k n => encodeRead .csr k n 0x04#16
  | .csrWrReg1 k v => encodeWrite .csr k v 0x04#16
  | .csrRdReg2 k n => encodeRead .csr k n 0x08#16
  | .csrWrReg2 k v => encodeWrite .csr k v 0x08#16
  | .csrRdReg3 k n => encodeRead .csr k n 0x0C#16
  | .csrWrReg3 k v => encodeWrite .csr k v 0x0C#16
  | .csrRdReg4 k n => encodeRead .csr k n 0x10#16
  | .csrWrReg4 k v => encodeWrite .csr k v 0x10#16
  | .csrRdReg5 k n => encodeRead .csr k n 0x14#16
  | .csrWrReg5 k v => encodeWrite .csr k v 0x14#16
  | .csrRdReg6 k n => encodeRead .csr k n 0x18#16
  | .csrWrReg6 k v => encodeWrite .csr k v 0x18#16
  | .csrRdReg7 k n => encodeRead .csr k n 0x1C#16
  | .csrWrReg7 k v => encodeWrite .csr k v 0x1C#16
  | .csrRdReg8 k n => encodeRead .csr k n 0x20#16
  | .csrWrReg8 k v => encodeWrite .csr k v 0x20#16
  | .csrRdReg9 k n => encodeRead .csr k n 0x24#16
  | .csrWrReg9 k v => encodeWrite .csr k v 0x24#16
  | .csrRdReg10 k n => encodeRead .csr k n 0x28#16
  | .csrWrReg10 k v => encodeWrite .csr k v 0x28#16
  | .csrRdReg11 k n => encodeRead .csr k n 0x2C#16
  | .csrWrReg11 k v => encodeWrite .csr k v 0x2C#16
  | .csrRdReg12 k n => encodeRead .csr k n 0x30#16
  | .csrWrReg12 k v => encodeWrite .csr k v 0x30#16
  | .csrRdReg13 k n => encodeRead .csr k n 0x34#16
  | .csrWrReg13 k v => encodeWrite .csr k v 0x34#16
  | .busBadwidth kind dev off => Request.bare kind.bits 3#2 dev off
  | .busInvalidOffset kind wc dev off => Request.bare kind.bits wc dev off
  | .resetGpio k => Request.bare 2#4 0#2 ⟨.gpio, k⟩ 0#16
  | .resetCsr k => Request.bare 2#4 0#2 ⟨.csr, k⟩ 0#16
  | .resetButton k => Request.bare 2#4 0#2 ⟨.button, k⟩ 0#16
  | .resetLed k => Request.bare 2#4 0#2 ⟨.led, k⟩ 0#16
  | .pinInGpio k pin b =>
    { Request.bare 3#4 0#2 ⟨.gpio, k⟩ (BitVec.ofNat 16 pin.val) with level := if b then 1 else 0 }
  | .pinInLed k b => { Request.bare 3#4 0#2 ⟨.led, k⟩ 0#16 with level := if b then 1 else 0 }
  | .connectGpio k p sink => encodeConnect ⟨.gpio, k⟩ (BitVec.ofNat 16 p.val) sink
  | .connectButton k sink => encodeConnect ⟨.button, k⟩ 0#16 sink
  | .byteInButton k x => { Request.bare 5#4 0#2 ⟨.button, k⟩ 0#16 with byte := x }
  | .save dev => Request.bare 6#4 0#2 dev 0#16
  | .restore dev fields => { Request.bare 7#4 0#2 dev 0#16 with fields := fields }

/-! ### The opcode table -/

/-- One row of spec/opcode_table.json: a descriptor word matches it when `word &&& mask = pattern`
(R59). -/
structure OpRow where
  pattern : BitVec 32
  mask : BitVec 32
deriving DecidableEq, Repr

/-- The row of spec/opcode_table.json an instruction belongs to, with the table's own match and
mask. -/
def Instr.row (i : Instr) : OpRow :=
  match i with
  | .gpioRdMode .. => ⟨0x00000000#32, 0xF3FFFFFF#32⟩
  | .gpioWrMode .. => ⟨0x10000000#32, 0xF3FFFFFF#32⟩
  | .gpioRdOtype .. => ⟨0x00000004#32, 0xF3FFFFFF#32⟩
  | .gpioWrOtype .. => ⟨0x10000004#32, 0xF3FFFFFF#32⟩
  | .gpioRdOspeed .. => ⟨0x00000008#32, 0xF3FFFFFF#32⟩
  | .gpioWrOspeed .. => ⟨0x10000008#32, 0xF3FFFFFF#32⟩
  | .gpioRdPupd .. => ⟨0x0000000C#32, 0xF3FFFFFF#32⟩
  | .gpioWrPupd .. => ⟨0x1000000C#32, 0xF3FFFFFF#32⟩
  | .gpioRdIdr .. => ⟨0x00000010#32, 0xF3FFFFFF#32⟩
  | .gpioWrIdr .. => ⟨0x10000010#32, 0xF3FFFFFF#32⟩
  | .gpioRdOdr .. => ⟨0x00000014#32, 0xF3FFFFFF#32⟩
  | .gpioWrOdr .. => ⟨0x10000014#32, 0xF3FFFFFF#32⟩
  | .gpioRdBsrr .. => ⟨0x00000018#32, 0xF3FFFFFF#32⟩
  | .gpioWrBsrr .. => ⟨0x10000018#32, 0xF3FFFFFF#32⟩
  | .gpioRdLck .. => ⟨0x0000001C#32, 0xF3FFFFFF#32⟩
  | .gpioWrLck .. => ⟨0x1000001C#32, 0xF3FFFFFF#32⟩
  | .gpioRdAfrl .. => ⟨0x00000020#32, 0xF3FFFFFF#32⟩
  | .gpioWrAfrl .. => ⟨0x10000020#32, 0xF3FFFFFF#32⟩
  | .gpioRdAfrh .. => ⟨0x00000024#32, 0xF3FFFFFF#32⟩
  | .gpioWrAfrh .. => ⟨0x10000024#32, 0xF3FFFFFF#32⟩
  | .csrRdReg0 .. => ⟨0x01000000#32, 0xF3FFFFFF#32⟩
  | .csrWrReg0 .. => ⟨0x11000000#32, 0xF3FFFFFF#32⟩
  | .csrRdReg1 .. => ⟨0x01000004#32, 0xF3FFFFFF#32⟩
  | .csrWrReg1 .. => ⟨0x11000004#32, 0xF3FFFFFF#32⟩
  | .csrRdReg2 .. => ⟨0x01000008#32, 0xF3FFFFFF#32⟩
  | .csrWrReg2 .. => ⟨0x11000008#32, 0xF3FFFFFF#32⟩
  | .csrRdReg3 .. => ⟨0x0100000C#32, 0xF3FFFFFF#32⟩
  | .csrWrReg3 .. => ⟨0x1100000C#32, 0xF3FFFFFF#32⟩
  | .csrRdReg4 .. => ⟨0x01000010#32, 0xF3FFFFFF#32⟩
  | .csrWrReg4 .. => ⟨0x11000010#32, 0xF3FFFFFF#32⟩
  | .csrRdReg5 .. => ⟨0x01000014#32, 0xF3FFFFFF#32⟩
  | .csrWrReg5 .. => ⟨0x11000014#32, 0xF3FFFFFF#32⟩
  | .csrRdReg6 .. => ⟨0x01000018#32, 0xF3FFFFFF#32⟩
  | .csrWrReg6 .. => ⟨0x11000018#32, 0xF3FFFFFF#32⟩
  | .csrRdReg7 .. => ⟨0x0100001C#32, 0xF3FFFFFF#32⟩
  | .csrWrReg7 .. => ⟨0x1100001C#32, 0xF3FFFFFF#32⟩
  | .csrRdReg8 .. => ⟨0x01000020#32, 0xF3FFFFFF#32⟩
  | .csrWrReg8 .. => ⟨0x11000020#32, 0xF3FFFFFF#32⟩
  | .csrRdReg9 .. => ⟨0x01000024#32, 0xF3FFFFFF#32⟩
  | .csrWrReg9 .. => ⟨0x11000024#32, 0xF3FFFFFF#32⟩
  | .csrRdReg10 .. => ⟨0x01000028#32, 0xF3FFFFFF#32⟩
  | .csrWrReg10 .. => ⟨0x11000028#32, 0xF3FFFFFF#32⟩
  | .csrRdReg11 .. => ⟨0x0100002C#32, 0xF3FFFFFF#32⟩
  | .csrWrReg11 .. => ⟨0x1100002C#32, 0xF3FFFFFF#32⟩
  | .csrRdReg12 .. => ⟨0x01000030#32, 0xF3FFFFFF#32⟩
  | .csrWrReg12 .. => ⟨0x11000030#32, 0xF3FFFFFF#32⟩
  | .csrRdReg13 .. => ⟨0x01000034#32, 0xF3FFFFFF#32⟩
  | .csrWrReg13 .. => ⟨0x11000034#32, 0xF3FFFFFF#32⟩
  | .busBadwidth .. => ⟨0x0C000000#32, 0xECFF0000#32⟩
  | .busInvalidOffset .. => ⟨0x00000000#32, 0xE0FF0000#32⟩
  | .resetGpio .. => ⟨0x20000000#32, 0xFFFFFFFF#32⟩
  | .resetCsr .. => ⟨0x21000000#32, 0xFFFFFFFF#32⟩
  | .resetButton .. => ⟨0x22000000#32, 0xFFFFFFFF#32⟩
  | .resetLed .. => ⟨0x23000000#32, 0xFFFFFFFF#32⟩
  | .pinInGpio .. => ⟨0x30000000#32, 0xFFFFFFF0#32⟩
  | .pinInLed .. => ⟨0x33000000#32, 0xFFFFFFFF#32⟩
  | .connectGpio .. => ⟨0x40000000#32, 0xFFFFFFC0#32⟩
  | .connectButton .. => ⟨0x42000000#32, 0xFFFFFFFF#32⟩
  | .byteInButton .. => ⟨0x52000000#32, 0xFFFFFFFF#32⟩
  | .save .. => ⟨0x60000000#32, 0xFCFFFFFF#32⟩
  | .restore .. => ⟨0x70000000#32, 0xFCFFFFFF#32⟩

/-- A descriptor word matches a row (R59). -/
def OpRow.matches (t : OpRow) (w : BitVec 32) : Bool := w &&& t.mask == t.pattern

end Sys2Proof
end

