-- ==== Sys2Proof/Machine/State.lean ====
section
/-! DEFINITION. The state of the block as plain data (spec/10_state.md), the reasons a step can stop,
and the state after reset (spec/70_reset_and_hazards.md R133). -/

namespace Sys2Proof.Machine

open Sys2Proof.Config

/-- A PinWire (R30): its cached level and its subscribers in registration order. Its source is the
endpoint that holds it. -/
structure Wire where
  level : Bool
  subs : List Sink
deriving DecidableEq, Repr

/-- A GPIO controller (R17 to R26, R87). -/
structure Gpio where
  /-- The identity, fixed at creation (R16). -/
  id : GpioId
  /-- MODE, 0x00 (R17). -/
  mode : Word
  /-- OTYPE, 0x04 (R18). -/
  otype : Word
  /-- OSPEED, 0x08 (R19). -/
  ospeed : Word
  /-- PUPD, 0x0C (R20). -/
  pupd : Word
  /-- IDR, 0x10 (R21). -/
  idr : Word
  /-- ODR, 0x14 (R22). -/
  odr : Word
  /-- ODR_old, at no offset (R23). -/
  odrOld : Word
  /-- `bsr`, the word last written to BSRR (R24). -/
  bsr : Word
  /-- LCK, 0x1C (R25). -/
  lck : Word
  /-- AFRL, 0x20 (R26). -/
  afrl : Word
  /-- AFRH, 0x24 (R26). -/
  afrh : Word
  /-- `G.out[p]`: the wire at output endpoint `p`, or none (R30, R87). -/
  out : Vector (Option Wire) 64
  /-- `BASE` and `REGION_SIZE` (R40). -/
  place : Placement
deriving DecidableEq, Repr

/-- A CSR bank (R28). -/
structure CsrBank where
  /-- `K.R[0]` to `K.R[13]`. -/
  regs : Vector Word 14
  place : Placement
deriving DecidableEq, Repr

/-- A ButtonSource (R31): its last level and the wire at its output endpoint 0. -/
structure Button where
  lastLevel : Bool
  out : Option Wire
  place : Placement
deriving DecidableEq, Repr

/-- A LedSink (R32): its last level and its external output stream `LED.out`, oldest byte first. -/
structure Led where
  lastLevel : Bool
  out : List Byte
  place : Placement
deriving DecidableEq, Repr

/-- An entry of FAULTS (R33): the device, the offset and the access kind. -/
structure FaultEntry where
  dev : DevRef
  off : BitVec 16
  kind : AccessKind
deriving DecidableEq, Repr

/-- The outcome of the latest performed request (R11). The model's own record of what the host is
answered (log 2). -/
inductive Reply where
  /-- No request has been performed yet. -/
  | none
  /-- Done, with no value. -/
  | done
  /-- Done, with the `8n`-bit value of a read (R44). -/
  | value (v : BusVal)
  /-- Done, with the record SAVE supplies (R135). -/
  | saved (fields : Record)
  /-- Fault `InvalidOffset` (R116). -/
  | fault (e : FaultEntry)
deriving DecidableEq, Repr

/-- The state of the block. -/
structure State where
  /-- The parameters of R7; no step changes them (log 3). -/
  cfg : Params
  /-- The GPIO controllers (R16). -/
  gpios : List Gpio
  /-- The CSR banks (R16). -/
  csrs : List CsrBank
  /-- The Buttons (R16). -/
  buttons : List Button
  /-- The LEDs (R16). -/
  leds : List Led
  /-- FAULTS (R33), oldest first. -/
  faults : List FaultEntry
  /-- The requests the host has presented and the block has not yet performed, oldest first (R14;
  the model's own, log 1). -/
  pending : List Request
  /-- The outcome of the latest request (the model's own, log 2). -/
  reply : Reply
  /-- The host has halted the emulation (R116, `HALT_ON_INVALID`; the model's own, log 5). -/
  halted : Bool
deriving DecidableEq, Repr

/-- Why the machine stops with a fault. -/
inductive Fault where
  /-- Raised by the step alone: the host has halted the whole emulation after an `InvalidOffset`,
  because `HALT_ON_INVALID` holds (R116, 90_conflicts.md C4). Safe: nothing further happens. -/
  | halted
deriving DecidableEq, Repr

/-- Why a request is refused: it is not well-formed and has no meaning (R11). -/
inductive Refusal where
  /-- Raised by exec's arm of an instruction that has no meaning yet. Safe. -/
  | notModelled (mnemonic : String)
  /-- Raised by the step: the decoder refuses the request (R60). Safe. -/
  | undecodable (e : DecodeError)
  /-- Raised by a meaning: the request names a device instance the system does not have (R16, R56).
  Safe. -/
  | noSuchDevice (dev : DevRef)
  /-- Raised by RESTORE: a field is missing from the record (R136). Safe. -/
  | malformedRecord
deriving DecidableEq, Repr

/-! ### Reset state -/

/-- `GPIO_RESET(id)` (R27). -/
def gpioVector (p : Params) (id : GpioId) : GpioVector :=
  match id with
  | .A => p.gpioReset.a
  | .B => p.gpioReset.b
  | .GENERIC => p.gpioReset.generic

/-- A GPIO controller right after it is created (R129, R133): its reset values, no wires. -/
def Gpio.created (p : Params) (id : GpioId) (place : Placement) : Gpio where
  id := id
  mode := (gpioVector p id).mode
  otype := 0#32
  ospeed := (gpioVector p id).ospeed
  pupd := (gpioVector p id).pupd
  idr := 0#32
  odr := 0#32
  odrOld := 0#32
  bsr := 0#32
  lck := 0#32
  afrl := 0#32
  afrh := 0#32
  out := Vector.replicate 64 none
  place := place

/-- A wire right after its first CONNECT: level 0 and one subscriber (R108). -/
def newWire (k : Sink) : Wire := ⟨false, [k]⟩

/-- The board's devices right after creation and before any connection (R133 step 1; R114). -/
def State.created : State where
  cfg := Params.board
  gpios := [Gpio.created Params.board .A placeGpioA, Gpio.created Params.board .B placeGpioB]
  csrs := [⟨Params.board.rccReset, placeRcc⟩]
  buttons := [⟨false, none, placeNone⟩]
  leds := [⟨false, [], placeNone⟩, ⟨false, [], placeNone⟩]
  faults := []
  pending := []
  reply := .none
  halted := false

/-- The machine right after reset: the board as R133 constructs it, with the connections of R114
(Button to GPIOA pin 1, GPIOB pins 6 and 7 to the two LEDs). -/
def State.reset : State :=
  { State.created with
    gpios :=
      [Gpio.created Params.board .A placeGpioA,
       { Gpio.created Params.board .B placeGpioB with
          out := ((Vector.replicate 64 none).set 6 (some (newWire (.led 0)))).set 7
            (some (newWire (.led 1))) }]
    buttons := [⟨false, some (newWire (.gpio 0 1)), placeNone⟩] }

end Sys2Proof.Machine
end

