-- ==== Sys2Proof/Machine/Operands.lean ====
section
/-! DEFINITION. The operand forms of the data path: the field helpers of spec/00_scope.md R9, the
one-bit write of spec/41_gpio_data.md R86, and the effective value of a bus write, spec/20_memory.md
R45. -/

namespace Sys2Proof.Machine

open Sys2Proof.Config

/-- `F1(r, i)`: the 1-bit field of pin `i` (R9). -/
def f1 (r : Word) (i : Fin 16) : Bool := r.getLsbD i.val

/-- `F2(r, i)`: the 2-bit field of pin `i` (R9). -/
def f2 (r : Word) (i : Fin 16) : BitVec 2 := r.extractLsb' (2 * i.val) 2

/-- `F4L(r, i)`: the alternate-function selector of pin `i` in 0..7 (R9). -/
def f4l (r : Word) (i : Fin 8) : BitVec 4 := r.extractLsb' (4 * i.val) 4

/-- `F4H(r, i)`: the alternate-function selector of pin `8 + i` (R9). -/
def f4h (r : Word) (i : Fin 8) : BitVec 4 := r.extractLsb' (4 * i.val) 4

/-- `r[i] <- b` (R86). -/
def setBit (r : Word) (i : Fin 16) (b : Bool) : Word :=
  if b then r ||| (1#32 <<< i.val) else r &&& ~~~(1#32 <<< i.val)

/-- `M(n)`: ones in the low `8n` bits (R45). -/
def lowMask (n : Width) : Word :=
  match n with
  | .w1 => 0xFF#32
  | .w2 => 0xFFFF#32
  | .w4 => 0xFFFFFFFF#32

/-- `Eff(old, v, n)`: what a write of `v` stores in a register that holds `old` (R45). -/
def eff (nw : NarrowWrite) (old : Word) (v : BusVal) : Word :=
  match v.width, nw with
  | .w4, _ => v.zext
  | _, .zeroExtend => v.zext
  | n, .merge => (old &&& ~~~(lowMask n)) ||| v.zext

/-- The 16 pins in ascending order (R79, D7). -/
def pins : List (Fin 16) := [0, 1, 2, 3, 4, 5, 6, 7, 8, 9, 10, 11, 12, 13, 14, 15]

/-- The input and output endpoint number of a pin (R87). -/
def endpointOf (i : Fin 16) : Fin 64 := ⟨i.val, by omega⟩

/-- The `set` half of a BSRR value, as ODR bits (R85). -/
def bsrrSet (v : Word) : Word := v &&& 0xFFFF#32

/-- The `reset` half of a BSRR value, as ODR bits (R85). -/
def bsrrReset (v : Word) : Word := v >>> 16

/-- A level as the byte an LED emits (R113). -/
def levelByte (b : Bool) : Byte := if b then 1#8 else 0#8

end Sys2Proof.Machine
end

