-- ==== Sys2Proof/Machine/Flags.lean ====
section
/-! DEFINITION. The block has no flags, condition codes or predicates (spec/10_state.md R15). The only
conditions its operations test are the two gates of the pin multiplexer (spec/40_gpio_config.md R63)
and the changed bits of ODR (spec/41_gpio_data.md R79); its only status bits are IDR's, sampled
through the input gate (R86). -/

namespace Sys2Proof.Machine

/-- `OutEnabled(G, i)` (R63): any mode but input. -/
def Gpio.outEnabled (g : Gpio) (i : Fin 16) : Bool := f2 g.mode i != 0#2

/-- `InEnabled(G, i)` (R63): input mode and some pull. -/
def Gpio.inEnabled (g : Gpio) (i : Fin 16) : Bool := f2 g.mode i == 0#2 && f2 g.pupd i != 0#2

/-- `changed` of the update algorithm (R79). -/
def Gpio.changed (g : Gpio) : Word := g.odrOld ^^^ g.odr

/-- `OnExternalLevel(G, i, b)` (R86): sample the level into IDR if the input gate is open. -/
def Gpio.onLevel (g : Gpio) (i : Fin 16) (b : Bool) : Gpio :=
  if g.inEnabled i then { g with idr := setBit g.idr i b } else g

end Sys2Proof.Machine
end

