-- ==== Sys2Proof/Machine/Ops.lean ====
section
/-! DEFINITION. The named operations over the block's state: device lookup, register reads and writes
(spec/20_memory.md), the InvalidOffset fault (spec/60_exceptions.md R116), wires (spec/43_pinwire.md),
the update algorithm (spec/41_gpio_data.md R79), reset, save and restore
(spec/70_reset_and_hazards.md). -/

namespace Sys2Proof.Machine

open Sys2Proof.Config

/-- What a meaning answers. -/
abbrev Result := Host.Outcome State Fault Refusal

/-! ### Updating one part of the state -/

/-- Record the outcome of the request (R11). -/
def State.answer (s : State) (r : Reply) : State := { s with reply := r }

/-- Change GPIO controller `k`. -/
def State.modifyGpio (s : State) (k : Nat) (f : Gpio → Gpio) : State :=
  { s with gpios := s.gpios.modify k f }

/-- Change CSR bank `k`. -/
def State.modifyCsr (s : State) (k : Nat) (f : CsrBank → CsrBank) : State :=
  { s with csrs := s.csrs.modify k f }

/-- Change Button `k`. -/
def State.modifyButton (s : State) (k : Nat) (f : Button → Button) : State :=
  { s with buttons := s.buttons.modify k f }

/-- Change LED `k`. -/
def State.modifyLed (s : State) (k : Nat) (f : Led → Led) : State :=
  { s with leds := s.leds.modify k f }

/-! ### Device instances (R16, R56) -/

/-- The system has the device instance. -/
def State.hasDevice (s : State) (d : DevRef) : Bool :=
  match d.cls with
  | .gpio => decide (d.idx < s.gpios.length)
  | .csr => decide (d.idx < s.csrs.length)
  | .button => decide (d.idx < s.buttons.length)
  | .led => decide (d.idx < s.leds.length)

/-- The device of a sink. -/
def sinkDev (k : Sink) : DevRef :=
  match k with
  | .gpio n _ => ⟨.gpio, n⟩
  | .led n => ⟨.led, n⟩

/-- Run a request that goes to GPIO controller `k`; without such a device it is refused (R56). -/
def State.onGpio (s : State) (k : Nat) (f : Gpio → Result) : Result :=
  match s.gpios[k]? with
  | some g => f g
  | none => .refused (.noSuchDevice ⟨.gpio, k⟩)

/-- Run a request that goes to CSR bank `k`. -/
def State.onCsr (s : State) (k : Nat) (f : CsrBank → Result) : Result :=
  match s.csrs[k]? with
  | some b => f b
  | none => .refused (.noSuchDevice ⟨.csr, k⟩)

/-- Run a request that goes to Button `k`. -/
def State.onButton (s : State) (k : Nat) (f : Button → Result) : Result :=
  match s.buttons[k]? with
  | some b => f b
  | none => .refused (.noSuchDevice ⟨.button, k⟩)

/-- Run a request that goes to LED `k`. -/
def State.onLed (s : State) (k : Nat) (f : Led → Result) : Result :=
  match s.leds[k]? with
  | some l => f l
  | none => .refused (.noSuchDevice ⟨.led, k⟩)

/-! ### The InvalidOffset fault -/

/-- `valid(dev, off, n)` (R41), with the width code in place of `n`. -/
def validAccess (c : DevClass) (wc : BitVec 2) (off : BitVec 16) : Bool :=
  (Width.ofBits wc).isSome && off.toNat % 4 == 0 && (defOffsets c).contains off

/-- `raise InvalidOffset(dev, off, kind)` (R116): the one synchronous error. FAULTS gains the entry
and the outcome says Fault; no register, wire, Button or LED changes. With `HALT_ON_INVALID` the host
halts the emulation afterwards (D17). There is no return from it: the block has no trap (R120). -/
def State.raiseInvalidOffset (s : State) (dev : DevRef) (off : BitVec 16) (kind : AccessKind) :
    State :=
  { s with
    faults := s.faults ++ [⟨dev, off, kind⟩]
    reply := .fault ⟨dev, off, kind⟩
    halted := s.halted || s.cfg.haltOnInvalid }

/-- A bus access that is not valid (R41, R116). -/
def invalidAccess (kind : AccessKind) (dev : DevRef) (off : BitVec 16) (s : State) : Result :=
  if s.hasDevice dev then .next (s.raiseInvalidOffset dev off kind)
  else .refused (.noSuchDevice dev)

/-! ### Register reads and writes (R44, R45) -/

/-- The per-register read rules of a GPIO controller (R64 to R84): BSRR reads as 0. -/
def Gpio.readReg (g : Gpio) (r : GpioReg) : Word :=
  match r with
  | .MODE => g.mode
  | .OTYPE => g.otype
  | .OSPEED => g.ospeed
  | .PUPD => g.pupd
  | .IDR => g.idr
  | .ODR => g.odr
  | .BSRR => 0#32
  | .LCK => g.lck
  | .AFRL => g.afrl
  | .AFRH => g.afrh

/-- `MemRead` of a GPIO register (R44): the low `8n` bits, and nothing changes. -/
def readGpio (r : GpioReg) (k : Nat) (n : Width) (s : State) : Result :=
  s.onGpio k fun g => .next (s.answer (.value (BusVal.ofWord n (g.readReg r))))

/-- `MemRead` of a CSR register (R44, R88). -/
def readCsr (m : Fin 14) (k : Nat) (n : Width) (s : State) : Result :=
  s.onCsr k fun b => .next (s.answer (.value (BusVal.ofWord n b.regs[m])))

/-- `MemWrite` of a GPIO register whose write rule changes the controller's registers and nothing else
(R45). -/
def writeGpio (k : Nat) (s : State) (f : Gpio → Gpio) : Result :=
  s.onGpio k fun _ => .next ((s.modifyGpio k f).answer .done)

/-- The CSR write hook `update(K)` (R90): a no-op. -/
def csrHook (b : CsrBank) : CsrBank := b

/-- `MemWrite` of a CSR register (R45, R89). -/
def writeCsr (m : Fin 14) (k : Nat) (v : BusVal) (s : State) : Result :=
  s.onCsr k fun _ =>
    .next ((s.modifyCsr k fun b =>
      csrHook { b with regs := b.regs.set m.val (eff s.cfg.narrowWrite b.regs[m] v) }).answer .done)

/-! ### Wires (R106 to R111) -/

/-- `OnExternalLevel(LED, 0, b)` (R113): keep the level and emit it as one byte. -/
def Led.onLevel (l : Led) (b : Bool) : Led :=
  { l with lastLevel := b, out := l.out ++ [levelByte b] }

/-- `OnExternalLevel(sink, q, b)` (R86, R113). A sink that does not exist receives nothing (log 8). -/
def State.deliver (s : State) (k : Sink) (b : Bool) : State :=
  match k with
  | .gpio n q => s.modifyGpio n fun g => g.onLevel q b
  | .led n => s.modifyLed n fun l => l.onLevel b

/-- Notify subscribers in registration order, each before the next (R109). -/
def State.deliverAll (s : State) (subs : List Sink) (b : Bool) : State :=
  subs.foldl (fun t k => t.deliver k b) s

/-- The wire at output endpoint `p` of GPIO controller `k` (R30), or none. -/
def State.gpioWire (s : State) (k : Nat) (p : Fin 64) : Option Wire :=
  match s.gpios[k]? with
  | some g => g.out[p]
  | none => none

/-- The wire at output endpoint 0 of Button `k` (R30), or none. -/
def State.buttonWire (s : State) (k : Nat) : Option Wire :=
  match s.buttons[k]? with
  | some b => b.out
  | none => none

/-- Put a wire at output endpoint `p` of GPIO controller `k`. -/
def State.setGpioWire (s : State) (k : Nat) (p : Fin 64) (w : Wire) : State :=
  s.modifyGpio k fun g => { g with out := g.out.set p.val (some w) }

/-- Put a wire at output endpoint 0 of Button `k`. -/
def State.setButtonWire (s : State) (k : Nat) (w : Wire) : State :=
  s.modifyButton k fun b => { b with out := some w }

/-- `SetLevel(G.out[p], b)` (R109): an unchanged level notifies nobody; otherwise the cache is updated
first and then every subscriber is notified. An endpoint with no wire drops the level (D26). -/
def State.setGpioLevel (s : State) (k : Nat) (p : Fin 64) (b : Bool) : State :=
  match s.gpioWire k p with
  | none => s
  | some w =>
    if b = w.level then s else (s.setGpioWire k p { w with level := b }).deliverAll w.subs b

/-- `SetLevel(BTN.out[0], b)` (R109, R112). -/
def State.setButtonLevel (s : State) (k : Nat) (b : Bool) : State :=
  match s.buttonWire k with
  | none => s
  | some w =>
    if b = w.level then s else (s.setButtonWire k { w with level := b }).deliverAll w.subs b

/-- A CONNECT at an endpoint (R108): a wire of level 0 is created if there is none, and the sink is
appended last. -/
def connectWire (w : Option Wire) (sink : Sink) : Wire :=
  match w with
  | none => ⟨false, [sink]⟩
  | some w => { w with subs := w.subs ++ [sink] }

/-! ### The update algorithm (R79) -/

/-- One pass of the loop of R79, for pin `i`. -/
def State.updatePin (k : Nat) (changed : Word) (s : State) (i : Fin 16) : State :=
  match s.gpios[k]? with
  | none => s
  | some g =>
    if f1 changed i && g.outEnabled i then s.setGpioLevel k (endpointOf i) (f1 g.odr i) else s

/-- `Update(G)` (R79): `changed` is computed once, the pins are visited in ascending order, and ODR_old
takes ODR unconditionally. -/
def State.update (s : State) (k : Nat) : State :=
  match s.gpios[k]? with
  | none => s
  | some g =>
    (pins.foldl (State.updatePin k g.changed) s).modifyGpio k fun g => { g with odrOld := g.odr }

/-- A write that changes the output data of GPIO controller `k` and then runs the update algorithm
once (R83, R85). -/
def writeOutput (k : Nat) (s : State) (f : Gpio → Gpio) : Result :=
  s.onGpio k fun _ => .next (((s.modifyGpio k f).update k).answer .done)

/-! ### Reset (R129 to R131) -/

/-- Reset of a GPIO controller (R129): every register at its reset value; wires, identity and placement
stay. -/
def Gpio.reset (p : Params) (g : Gpio) : Gpio :=
  { Gpio.created p g.id g.place with out := g.out }

/-- Reset of a CSR bank (R130). -/
def CsrBank.reset (p : Params) (b : CsrBank) : CsrBank := { b with regs := p.rccReset }

/-- Reset of a Button (R131). -/
def Button.reset (b : Button) : Button := { b with lastLevel := false }

/-- Reset of an LED (R131): the external stream stays. -/
def Led.reset (l : Led) : Led := { l with lastLevel := false }

/-! ### Snapshot (R135, R136) -/

/-- A register field of a record. -/
def wordEntry (f : SnapField) (w : Word) : SnapEntry := ⟨f, 32, w⟩

/-- A level field of a record, `lw` bits wide. -/
def levelEntry (lw : Nat) (b : Bool) : SnapEntry := ⟨.lastLevel, lw, BitVec.ofNat lw b.toNat⟩

/-- The persisted fields of a GPIO controller, in the spec's order (R135). -/
def Gpio.record (g : Gpio) : Record :=
  [wordEntry .mode g.mode, wordEntry .otype g.otype, wordEntry .ospeed g.ospeed,
   wordEntry .pupd g.pupd, wordEntry .idr g.idr, wordEntry .odr g.odr,
   wordEntry .odr_old g.odrOld, wordEntry .bsr g.bsr, wordEntry .lck g.lck,
   wordEntry .afrl g.afrl, wordEntry .afrh g.afrh]

/-- The persisted fields of a CSR bank, in offset order (R135). -/
def CsrBank.record (b : CsrBank) : Record :=
  csrNumbers.map fun m => wordEntry (.reg m) b.regs[m]

/-- The entry of field `f` with its width, if the record has one (log 6). -/
def findField (rec : Record) (f : SnapField) (width : Nat) : Option SnapEntry :=
  rec.find? fun e => e.field == f && e.width == width

/-- A record may leave out field `f` of a device of class `c` (R136, `LEGACY_FIELD`). -/
def mayBeAbsent (p : Params) (c : DevClass) (f : SnapField) : Bool :=
  p.legacyField == some (c, f)

/-- The new value of a register field (R136): the record's, or the present one if the field may be
absent; none if the record is malformed. -/
def restoreWord (p : Params) (c : DevClass) (rec : Record) (f : SnapField) (cur : Word) :
    Option Word :=
  match findField rec f 32 with
  | some e => some (e.value.setWidth 32)
  | none => if mayBeAbsent p c f then some cur else none

/-- The new value of a `lastLevel` (R136): non-zero is 1. -/
def restoreLevel (p : Params) (c : DevClass) (rec : Record) (cur : Bool) : Option Bool :=
  match findField rec .lastLevel p.snapLevelWidth with
  | some e => some (e.value != 0#e.width)
  | none => if mayBeAbsent p c .lastLevel then some cur else none

/-- RESTORE of a GPIO controller (R136), or none if the record is malformed. -/
def Gpio.restore (p : Params) (rec : Record) (g : Gpio) : Option Gpio := do
  let mode ← restoreWord p .gpio rec .mode g.mode
  let otype ← restoreWord p .gpio rec .otype g.otype
  let ospeed ← restoreWord p .gpio rec .ospeed g.ospeed
  let pupd ← restoreWord p .gpio rec .pupd g.pupd
  let idr ← restoreWord p .gpio rec .idr g.idr
  let odr ← restoreWord p .gpio rec .odr g.odr
  let odrOld ← restoreWord p .gpio rec .odr_old g.odrOld
  let bsr ← restoreWord p .gpio rec .bsr g.bsr
  let lck ← restoreWord p .gpio rec .lck g.lck
  let afrl ← restoreWord p .gpio rec .afrl g.afrl
  let afrh ← restoreWord p .gpio rec .afrh g.afrh
  pure { g with
    mode := mode, otype := otype, ospeed := ospeed, pupd := pupd, idr := idr, odr := odr
    odrOld := odrOld, bsr := bsr, lck := lck, afrl := afrl, afrh := afrh }

/-- RESTORE of one CSR register (R136). -/
def CsrBank.restoreReg (p : Params) (rec : Record) (b : CsrBank) (m : Fin 14) : Option CsrBank := do
  let w ← restoreWord p .csr rec (.reg m) b.regs[m]
  pure { b with regs := b.regs.set m.val w }

/-- RESTORE of a CSR bank (R136): the 14 registers; the hook does not run. -/
def CsrBank.restore (p : Params) (rec : Record) (b : CsrBank) : Option CsrBank :=
  csrNumbers.foldlM (CsrBank.restoreReg p rec) b

/-- RESTORE of a Button (R136): no drive. -/
def Button.restore (p : Params) (rec : Record) (b : Button) : Option Button :=
  (restoreLevel p .button rec b.lastLevel).map fun l => { b with lastLevel := l }

/-- RESTORE of an LED (R136): no byte is emitted. -/
def Led.restore (p : Params) (rec : Record) (l : Led) : Option Led :=
  (restoreLevel p .led rec l.lastLevel).map fun x => { l with lastLevel := x }

/-- A request whose record may be malformed (R136, D34). -/
def accepted (t : Option State) : Result :=
  match t with
  | some t => .next (t.answer .done)
  | none => .refused .malformedRecord

/-! ### Addressing (R40, R43) -/

/-- The system bus address lies in the region (R40). -/
def inRegion (p : Placement) (a : Nat) : Bool := decide (p.base ≤ a ∧ a < p.base + p.size)

/-- The region of a device instance (R40). -/
def State.placeOf (s : State) (d : DevRef) : Option Placement :=
  match d.cls with
  | .gpio => s.gpios[d.idx]?.map (·.place)
  | .csr => s.csrs[d.idx]?.map (·.place)
  | .button => s.buttons[d.idx]?.map (·.place)
  | .led => s.leds[d.idx]?.map (·.place)

/-- Every device instance of the system. -/
def State.devices (s : State) : List DevRef :=
  (List.range s.gpios.length).map (DevRef.mk .gpio) ++
  (List.range s.csrs.length).map (DevRef.mk .csr) ++
  (List.range s.buttons.length).map (DevRef.mk .button) ++
  (List.range s.leds.length).map (DevRef.mk .led)

/-- The offset at which a system bus address reaches a device, if it does (R40). -/
def State.offsetIn (s : State) (a : Nat) (d : DevRef) : Option (DevRef × Nat) :=
  match s.placeOf d with
  | some p => if inRegion p a then some (d, a - p.base) else none
  | none => none

/-- The device and the offset that a system bus address reaches (R40), or none outside every region.
Regions of a board do not overlap; where they did, the first device would be taken (log 7). -/
def State.busTarget (s : State) (a : Nat) : Option (DevRef × Nat) :=
  s.devices.findSome? (s.offsetIn a)

/-- The GPIO registers in offset order (R38). -/
def gpioRegs : List GpioReg :=
  [.MODE, .OTYPE, .OSPEED, .PUPD, .IDR, .ODR, .BSRR, .LCK, .AFRL, .AFRH]

/-- The register at word number `j` (offset `4j`) of a device, as a read gives it (R38, R39). -/
def State.readWord (s : State) (d : DevRef) (j : Nat) : Option Word :=
  match d.cls with
  | .gpio =>
    match s.gpios[d.idx]?, gpioRegs[j]? with
    | some g, some r => some (g.readReg r)
    | _, _ => none
  | .csr =>
    match s.csrs[d.idx]? with
    | some b => b.regs[j]?
    | none => none
  | .button => none
  | .led => none

/-- Byte `a` of a device's register space (R43): byte lane `a mod 4`, little-endian, of the register at
`a - a mod 4`; none where no register is. -/
def State.readByte (s : State) (d : DevRef) (a : Nat) : Option Byte :=
  (s.readWord d (a / 4)).map fun w => w.extractLsb' (8 * (a % 4)) 8

/-! ### The next request -/

/-- The oldest presented request and the state without it (R14, R49), or none. -/
def State.fetch (s : State) : Option (Request × State) :=
  match s.pending with
  | [] => none
  | r :: rest => some (r, { s with pending := rest })

/-- Present a request so that it is the next to be performed, on a machine that is not halted. -/
def State.present (s : State) (r : Request) : State :=
  { s with pending := r :: s.pending, halted := false }

end Sys2Proof.Machine
end

