-- ==== Sys2Proof/Machine/Bus.lean ====
section
/-! DEFINITION. The bus accesses that are not valid (spec/20_memory.md R41; spec/60_exceptions.md
R116). -/

namespace Sys2Proof.Machine

/-- BUS.BADWIDTH (R58 step 3, R116 c). -/
def execBusBadwidth (kind : AccessKind) (dev : DevRef) (off : BitVec 16) (s : State) : Result :=
  invalidAccess kind dev off s

/-- BUS.INVALID_OFFSET (R58 steps 2 and 5, R116 a and b). -/
def execBusInvalidOffset (kind : AccessKind) (_wc : BitVec 2) (dev : DevRef) (off : BitVec 16)
    (s : State) : Result :=
  invalidAccess kind dev off s

end Sys2Proof.Machine
end

