-- ==== Sys2Proof/Machine/Control.lean ====
section
/-! DEFINITION. Reset, save and restore (spec/70_reset_and_hazards.md R129 to R131, R135, R136). -/

namespace Sys2Proof.Machine

/-- RESET.GPIO (R129). -/
def execResetGpio (k : Nat) (s : State) : Result :=
  s.onGpio k fun _ => .next ((s.modifyGpio k (Gpio.reset s.cfg)).answer .done)

/-- RESET.CSR (R130). -/
def execResetCsr (k : Nat) (s : State) : Result :=
  s.onCsr k fun _ => .next ((s.modifyCsr k (CsrBank.reset s.cfg)).answer .done)

/-- RESET.BUTTON (R131). -/
def execResetButton (k : Nat) (s : State) : Result :=
  s.onButton k fun _ => .next ((s.modifyButton k Button.reset).answer .done)

/-- RESET.LED (R131). -/
def execResetLed (k : Nat) (s : State) : Result :=
  s.onLed k fun _ => .next ((s.modifyLed k Led.reset).answer .done)

/-- SAVE (R135): the device supplies its persisted fields; nothing changes. -/
def execSave (dev : DevRef) (s : State) : Result :=
  match dev.cls with
  | .gpio => s.onGpio dev.idx fun g => .next (s.answer (.saved g.record))
  | .csr => s.onCsr dev.idx fun b => .next (s.answer (.saved b.record))
  | .button =>
    s.onButton dev.idx fun b =>
      .next (s.answer (.saved [levelEntry s.cfg.snapLevelWidth b.lastLevel]))
  | .led =>
    s.onLed dev.idx fun l =>
      .next (s.answer (.saved [levelEntry s.cfg.snapLevelWidth l.lastLevel]))

/-- RESTORE (R136): the device takes the record's fields verbatim; no update, no drive, no byte. -/
def execRestore (dev : DevRef) (fields : Record) (s : State) : Result :=
  match dev.cls with
  | .gpio =>
    s.onGpio dev.idx fun g =>
      accepted ((Gpio.restore s.cfg fields g).map fun g' => s.modifyGpio dev.idx fun _ => g')
  | .csr =>
    s.onCsr dev.idx fun b =>
      accepted ((CsrBank.restore s.cfg fields b).map fun b' => s.modifyCsr dev.idx fun _ => b')
  | .button =>
    s.onButton dev.idx fun b =>
      accepted ((Button.restore s.cfg fields b).map fun b' => s.modifyButton dev.idx fun _ => b')
  | .led =>
    s.onLed dev.idx fun l =>
      accepted ((Led.restore s.cfg fields l).map fun l' => s.modifyLed dev.idx fun _ => l')

end Sys2Proof.Machine
end

