-- ==== Sys2Proof/Machine/Csr.lean ====
section
/-! DEFINITION. The CSR bank (spec/42_csr_bank.md R88 to R105): 14 registers of plain storage, with no
derived behaviour (R91). -/

namespace Sys2Proof.Machine

/-- CSR.RD.REG0 (R88, R92). -/
def execCsrRdReg0 (k : Nat) (n : Width) (s : State) : Result := readCsr 0 k n s

/-- CSR.WR.REG0 (R89, R92). -/
def execCsrWrReg0 (k : Nat) (v : BusVal) (s : State) : Result := writeCsr 0 k v s

/-- CSR.RD.REG1 (R88, R93). -/
def execCsrRdReg1 (k : Nat) (n : Width) (s : State) : Result := readCsr 1 k n s

/-- CSR.WR.REG1 (R89, R93). -/
def execCsrWrReg1 (k : Nat) (v : BusVal) (s : State) : Result := writeCsr 1 k v s

/-- CSR.RD.REG2 (R88, R94). -/
def execCsrRdReg2 (k : Nat) (n : Width) (s : State) : Result := readCsr 2 k n s

/-- CSR.WR.REG2 (R89, R94). -/
def execCsrWrReg2 (k : Nat) (v : BusVal) (s : State) : Result := writeCsr 2 k v s

/-- CSR.RD.REG3 (R88, R95). -/
def execCsrRdReg3 (k : Nat) (n : Width) (s : State) : Result := readCsr 3 k n s

/-- CSR.WR.REG3 (R89, R95). -/
def execCsrWrReg3 (k : Nat) (v : BusVal) (s : State) : Result := writeCsr 3 k v s

/-- CSR.RD.REG4 (R88, R96). -/
def execCsrRdReg4 (k : Nat) (n : Width) (s : State) : Result := readCsr 4 k n s

/-- CSR.WR.REG4 (R89, R96). -/
def execCsrWrReg4 (k : Nat) (v : BusVal) (s : State) : Result := writeCsr 4 k v s

/-- CSR.RD.REG5 (R88, R97). -/
def execCsrRdReg5 (k : Nat) (n : Width) (s : State) : Result := readCsr 5 k n s

/-- CSR.WR.REG5 (R89, R97). -/
def execCsrWrReg5 (k : Nat) (v : BusVal) (s : State) : Result := writeCsr 5 k v s

/-- CSR.RD.REG6 (R88, R98). -/
def execCsrRdReg6 (k : Nat) (n : Width) (s : State) : Result := readCsr 6 k n s

/-- CSR.WR.REG6 (R89, R98). -/
def execCsrWrReg6 (k : Nat) (v : BusVal) (s : State) : Result := writeCsr 6 k v s

/-- CSR.RD.REG7 (R88, R99). -/
def execCsrRdReg7 (k : Nat) (n : Width) (s : State) : Result := readCsr 7 k n s

/-- CSR.WR.REG7 (R89, R99). -/
def execCsrWrReg7 (k : Nat) (v : BusVal) (s : State) : Result := writeCsr 7 k v s

/-- CSR.RD.REG8 (R88, R100). -/
def execCsrRdReg8 (k : Nat) (n : Width) (s : State) : Result := readCsr 8 k n s

/-- CSR.WR.REG8 (R89, R100). -/
def execCsrWrReg8 (k : Nat) (v : BusVal) (s : State) : Result := writeCsr 8 k v s

/-- CSR.RD.REG9 (R88, R101). -/
def execCsrRdReg9 (k : Nat) (n : Width) (s : State) : Result := readCsr 9 k n s

/-- CSR.WR.REG9 (R89, R101). -/
def execCsrWrReg9 (k : Nat) (v : BusVal) (s : State) : Result := writeCsr 9 k v s

/-- CSR.RD.REG10 (R88, R102). -/
def execCsrRdReg10 (k : Nat) (n : Width) (s : State) : Result := readCsr 10 k n s

/-- CSR.WR.REG10 (R89, R102). -/
def execCsrWrReg10 (k : Nat) (v : BusVal) (s : State) : Result := writeCsr 10 k v s

/-- CSR.RD.REG11 (R88, R103). -/
def execCsrRdReg11 (k : Nat) (n : Width) (s : State) : Result := readCsr 11 k n s

/-- CSR.WR.REG11 (R89, R103). -/
def execCsrWrReg11 (k : Nat) (v : BusVal) (s : State) : Result := writeCsr 11 k v s

/-- CSR.RD.REG12 (R88, R104). -/
def execCsrRdReg12 (k : Nat) (n : Width) (s : State) : Result := readCsr 12 k n s

/-- CSR.WR.REG12 (R89, R104). -/
def execCsrWrReg12 (k : Nat) (v : BusVal) (s : State) : Result := writeCsr 12 k v s

/-- CSR.RD.REG13 (R88, R105). -/
def execCsrRdReg13 (k : Nat) (n : Width) (s : State) : Result := readCsr 13 k n s

/-- CSR.WR.REG13 (R89, R105). -/
def execCsrWrReg13 (k : Nat) (v : BusVal) (s : State) : Result := writeCsr 13 k v s

end Sys2Proof.Machine
end

