-- ==== Sys2Proof/Machine/GpioConfig.lean ====
section
/-! DEFINITION. The GPIO configuration registers (spec/40_gpio_config.md R64 to R77): plain storage. No
write of one of them drives a wire or changes another register. -/

namespace Sys2Proof.Machine

/-- GPIO.RD.MODE (R64). -/
def execGpioRdMode (k : Nat) (n : Width) (s : State) : Result := readGpio .MODE k n s

/-- GPIO.WR.MODE (R65). -/
def execGpioWrMode (k : Nat) (v : BusVal) (s : State) : Result :=
  writeGpio k s fun g => { g with mode := eff s.cfg.narrowWrite g.mode v }

/-- GPIO.RD.OTYPE (R66). -/
def execGpioRdOtype (k : Nat) (n : Width) (s : State) : Result := readGpio .OTYPE k n s

/-- GPIO.WR.OTYPE (R67). -/
def execGpioWrOtype (k : Nat) (v : BusVal) (s : State) : Result :=
  writeGpio k s fun g => { g with otype := eff s.cfg.narrowWrite g.otype v }

/-- GPIO.RD.OSPEED (R68). -/
def execGpioRdOspeed (k : Nat) (n : Width) (s : State) : Result := readGpio .OSPEED k n s

/-- GPIO.WR.OSPEED (R69). -/
def execGpioWrOspeed (k : Nat) (v : BusVal) (s : State) : Result :=
  writeGpio k s fun g => { g with ospeed := eff s.cfg.narrowWrite g.ospeed v }

/-- GPIO.RD.PUPD (R70). -/
def execGpioRdPupd (k : Nat) (n : Width) (s : State) : Result := readGpio .PUPD k n s

/-- GPIO.WR.PUPD (R71). -/
def execGpioWrPupd (k : Nat) (v : BusVal) (s : State) : Result :=
  writeGpio k s fun g => { g with pupd := eff s.cfg.narrowWrite g.pupd v }

/-- GPIO.RD.LCK (R72). -/
def execGpioRdLck (k : Nat) (n : Width) (s : State) : Result := readGpio .LCK k n s

/-- GPIO.WR.LCK (R73). -/
def execGpioWrLck (k : Nat) (v : BusVal) (s : State) : Result :=
  writeGpio k s fun g => { g with lck := eff s.cfg.narrowWrite g.lck v }

/-- GPIO.RD.AFRL (R74). -/
def execGpioRdAfrl (k : Nat) (n : Width) (s : State) : Result := readGpio .AFRL k n s

/-- GPIO.WR.AFRL (R75). -/
def execGpioWrAfrl (k : Nat) (v : BusVal) (s : State) : Result :=
  writeGpio k s fun g => { g with afrl := eff s.cfg.narrowWrite g.afrl v }

/-- GPIO.RD.AFRH (R76). -/
def execGpioRdAfrh (k : Nat) (n : Width) (s : State) : Result := readGpio .AFRH k n s

/-- GPIO.WR.AFRH (R77). -/
def execGpioWrAfrh (k : Nat) (v : BusVal) (s : State) : Result :=
  writeGpio k s fun g => { g with afrh := eff s.cfg.narrowWrite g.afrh v }

end Sys2Proof.Machine
end

