-- ==== Sys2Proof/Machine/GpioData.lean ====
section
/-! DEFINITION. The GPIO data registers and the input path (spec/41_gpio_data.md R80 to R86). -/

namespace Sys2Proof.Machine

/-- GPIO.RD.IDR (R80). -/
def execGpioRdIdr (k : Nat) (n : Width) (s : State) : Result := readGpio .IDR k n s

/-- GPIO.WR.IDR (R81): an IgnoredAccess (R117), Done with no state change. -/
def execGpioWrIdr (k : Nat) (_v : BusVal) (s : State) : Result :=
  s.onGpio k fun _ => .next (s.answer .done)

/-- GPIO.RD.ODR (R82). -/
def execGpioRdOdr (k : Nat) (n : Width) (s : State) : Result := readGpio .ODR k n s

/-- GPIO.WR.ODR (R83). -/
def execGpioWrOdr (k : Nat) (v : BusVal) (s : State) : Result :=
  writeOutput k s fun g => { g with odr := eff s.cfg.narrowWrite g.odr v }

/-- GPIO.RD.BSRR (R84): 0. -/
def execGpioRdBsrr (k : Nat) (n : Width) (s : State) : Result := readGpio .BSRR k n s

/-- GPIO.WR.BSRR (R85): the value is always zero-extended; set first, then clear. -/
def execGpioWrBsrr (k : Nat) (v : BusVal) (s : State) : Result :=
  writeOutput k s fun g =>
    { g with
      bsr := v.zext
      odr := (g.odr ||| bsrrSet v.zext) &&& ~~~(bsrrReset v.zext) }

/-- PIN_IN.GPIO (R86): an input event from the host. -/
def execPinInGpio (k : Nat) (pin : Fin 16) (b : Bool) (s : State) : Result :=
  s.onGpio k fun _ => .next ((s.deliver (.gpio k pin) b).answer .done)

end Sys2Proof.Machine
end

