-- ==== Sys2Proof/Machine/PinWire.lean ====
section
/-! DEFINITION. The interconnect's requests (spec/43_pinwire.md R108, R112, R113). -/

namespace Sys2Proof.Machine

/-- PIN_IN.LED (R113): a level the host delivers directly. -/
def execPinInLed (k : Nat) (b : Bool) (s : State) : Result :=
  s.onLed k fun _ => .next ((s.deliver (.led k) b).answer .done)

/-- CONNECT.GPIO (R108). -/
def execConnectGpio (k : Nat) (p : Fin 64) (sink : Sink) (s : State) : Result :=
  s.onGpio k fun _ =>
    if s.hasDevice (sinkDev sink) then
      .next ((s.setGpioWire k p (connectWire (s.gpioWire k p) sink)).answer .done)
    else .refused (.noSuchDevice (sinkDev sink))

/-- CONNECT.BUTTON (R108). -/
def execConnectButton (k : Nat) (sink : Sink) (s : State) : Result :=
  s.onButton k fun _ =>
    if s.hasDevice (sinkDev sink) then
      .next ((s.setButtonWire k (connectWire (s.buttonWire k) sink)).answer .done)
    else .refused (.noSuchDevice (sinkDev sink))

/-- BYTE_IN.BUTTON (R112): the level is `x ≠ 0`; it is kept and driven. -/
def execByteInButton (k : Nat) (x : Byte) (s : State) : Result :=
  s.onButton k fun _ =>
    .next (((s.modifyButton k fun b => { b with lastLevel := x != 0#8 }).setButtonLevel k
      (x != 0#8)).answer .done)

end Sys2Proof.Machine
end

