-- ==== Sys2Proof/Machine/Dispatch.lean ====
section
/-! DEFINITION. The meaning of each instruction, one arm per constructor of Instr. -/

namespace Sys2Proof.Machine

def exec (i : Instr) (s : State) : Host.Outcome State Fault Refusal :=
  match i with
  | .gpioRdMode k n => Sys2Proof.Machine.execGpioRdMode k n s
  | .gpioWrMode k v => Sys2Proof.Machine.execGpioWrMode k v s
  | .gpioRdOtype k n => Sys2Proof.Machine.execGpioRdOtype k n s
  | .gpioWrOtype k v => Sys2Proof.Machine.execGpioWrOtype k v s
  | .gpioRdOspeed k n => Sys2Proof.Machine.execGpioRdOspeed k n s
  | .gpioWrOspeed k v => Sys2Proof.Machine.execGpioWrOspeed k v s
  | .gpioRdPupd k n => Sys2Proof.Machine.execGpioRdPupd k n s
  | .gpioWrPupd k v => Sys2Proof.Machine.execGpioWrPupd k v s
  | .gpioRdIdr k n => Sys2Proof.Machine.execGpioRdIdr k n s
  | .gpioWrIdr k v => Sys2Proof.Machine.execGpioWrIdr k v s
  | .gpioRdOdr k n => Sys2Proof.Machine.execGpioRdOdr k n s
  | .gpioWrOdr k v => Sys2Proof.Machine.execGpioWrOdr k v s
  | .gpioRdBsrr k n => Sys2Proof.Machine.execGpioRdBsrr k n s
  | .gpioWrBsrr k v => Sys2Proof.Machine.execGpioWrBsrr k v s
  | .gpioRdLck k n => Sys2Proof.Machine.execGpioRdLck k n s
  | .gpioWrLck k v => Sys2Proof.Machine.execGpioWrLck k v s
  | .gpioRdAfrl k n => Sys2Proof.Machine.execGpioRdAfrl k n s
  | .gpioWrAfrl k v => Sys2Proof.Machine.execGpioWrAfrl k v s
  | .gpioRdAfrh k n => Sys2Proof.Machine.execGpioRdAfrh k n s
  | .gpioWrAfrh k v => Sys2Proof.Machine.execGpioWrAfrh k v s
  | .csrRdReg0 k n => Sys2Proof.Machine.execCsrRdReg0 k n s
  | .csrWrReg0 k v => Sys2Proof.Machine.execCsrWrReg0 k v s
  | .csrRdReg1 k n => Sys2Proof.Machine.execCsrRdReg1 k n s
  | .csrWrReg1 k v => Sys2Proof.Machine.execCsrWrReg1 k v s
  | .csrRdReg2 k n => Sys2Proof.Machine.execCsrRdReg2 k n s
  | .csrWrReg2 k v => Sys2Proof.Machine.execCsrWrReg2 k v s
  | .csrRdReg3 k n => Sys2Proof.Machine.execCsrRdReg3 k n s
  | .csrWrReg3 k v => Sys2Proof.Machine.execCsrWrReg3 k v s
  | .csrRdReg4 k n => Sys2Proof.Machine.execCsrRdReg4 k n s
  | .csrWrReg4 k v => Sys2Proof.Machine.execCsrWrReg4 k v s
  | .csrRdReg5 k n => Sys2Proof.Machine.execCsrRdReg5 k n s
  | .csrWrReg5 k v => Sys2Proof.Machine.execCsrWrReg5 k v s
  | .csrRdReg6 k n => Sys2Proof.Machine.execCsrRdReg6 k n s
  | .csrWrReg6 k v => Sys2Proof.Machine.execCsrWrReg6 k v s
  | .csrRdReg7 k n => Sys2Proof.Machine.execCsrRdReg7 k n s
  | .csrWrReg7 k v => Sys2Proof.Machine.execCsrWrReg7 k v s
  | .csrRdReg8 k n => Sys2Proof.Machine.execCsrRdReg8 k n s
  | .csrWrReg8 k v => Sys2Proof.Machine.execCsrWrReg8 k v s
  | .csrRdReg9 k n => Sys2Proof.Machine.execCsrRdReg9 k n s
  | .csrWrReg9 k v => Sys2Proof.Machine.execCsrWrReg9 k v s
  | .csrRdReg10 k n => Sys2Proof.Machine.execCsrRdReg10 k n s
  | .csrWrReg10 k v => Sys2Proof.Machine.execCsrWrReg10 k v s
  | .csrRdReg11 k n => Sys2Proof.Machine.execCsrRdReg11 k n s
  | .csrWrReg11 k v => Sys2Proof.Machine.execCsrWrReg11 k v s
  | .csrRdReg12 k n => Sys2Proof.Machine.execCsrRdReg12 k n s
  | .csrWrReg12 k v => Sys2Proof.Machine.execCsrWrReg12 k v s
  | .csrRdReg13 k n => Sys2Proof.Machine.execCsrRdReg13 k n s
  | .csrWrReg13 k v => Sys2Proof.Machine.execCsrWrReg13 k v s
  | .busBadwidth kind dev off => Sys2Proof.Machine.execBusBadwidth kind dev off s
  | .busInvalidOffset kind wc dev off => Sys2Proof.Machine.execBusInvalidOffset kind wc dev off s
  | .resetGpio k => Sys2Proof.Machine.execResetGpio k s
  | .resetCsr k => Sys2Proof.Machine.execResetCsr k s
  | .resetButton k => Sys2Proof.Machine.execResetButton k s
  | .resetLed k => Sys2Proof.Machine.execResetLed k s
  | .pinInGpio k pin b => Sys2Proof.Machine.execPinInGpio k pin b s
  | .pinInLed k b => Sys2Proof.Machine.execPinInLed k b s
  | .connectGpio k p sink => Sys2Proof.Machine.execConnectGpio k p sink s
  | .connectButton k sink => Sys2Proof.Machine.execConnectButton k sink s
  | .byteInButton k x => Sys2Proof.Machine.execByteInButton k x s
  | .save dev => Sys2Proof.Machine.execSave dev s
  | .restore dev fields => Sys2Proof.Machine.execRestore dev fields s

end Sys2Proof.Machine
end

