-- ==== Sys2Proof/Machine/Step.lean ====
section
/-! DEFINITION. One step: perform the oldest presented request (spec/10_state.md R14; spec/20_memory.md
R46, R49). -/

namespace Sys2Proof.Machine

/-- One step. A halted emulation stops (R116). With no request presented the block does nothing (R14,
log 1). Otherwise the oldest request is taken, decoded and performed as one indivisible step (R46). -/
def step (s : State) : Host.Outcome State Fault Refusal :=
  if s.halted then .fault .halted
  else
    match s.fetch with
    | none => .next s
    | some (r, s') =>
      match decode r with
      | .ok i => exec i s'
      | .error e => .refused (.undecodable e)

/-- The state in which the next step performs the request of the bare descriptor word `w`: the host
presents it first, on a machine that is not halted (log 1). -/
def State.withFetchWord (s : State) (nbits w : Nat) : State :=
  s.present (Request.ofWord s.cfg.snapLevelWidth (wordOfBits nbits w))

end Sys2Proof.Machine
end

