-- ==== Sys2Proof/Machine/Assembly.lean ====
section
/-! DEFINITION. The request syntax and the pseudo-operations of spec/30_encoding.md R61 and R62, as
abstract syntax: a line's parts, and the request it stands for. The characters of a line are not
modelled (log 10). -/

namespace Sys2Proof.Machine

/-- The instance names of the board (R61, R114). -/
inductive DevName where
  | GPIOA
  | GPIOB
  | RCC
  | BTN
  | LEDB
  | LEDG
deriving DecidableEq, Repr

/-- The device instance a name stands for (R61). -/
def devOfName (n : DevName) : DevRef :=
  match n with
  | .GPIOA => ⟨.gpio, 0⟩
  | .GPIOB => ⟨.gpio, 1⟩
  | .RCC => ⟨.csr, 0⟩
  | .BTN => ⟨.button, 0⟩
  | .LEDB => ⟨.led, 0⟩
  | .LEDG => ⟨.led, 1⟩

/-- An offset operand (R61): a number, or a register name in its place. -/
inductive OffArg where
  | num (off : BitVec 16)
  | gpioReg (r : GpioReg)
  | csrReg (m : Fin 14)
deriving DecidableEq, Repr

/-- The offset of a GPIO register (R38). -/
def gpioOffset (r : GpioReg) : BitVec 16 :=
  match r with
  | .MODE => 0x00#16
  | .OTYPE => 0x04#16
  | .OSPEED => 0x08#16
  | .PUPD => 0x0C#16
  | .IDR => 0x10#16
  | .ODR => 0x14#16
  | .BSRR => 0x18#16
  | .LCK => 0x1C#16
  | .AFRL => 0x20#16
  | .AFRH => 0x24#16

/-- The offset an operand stands for (R61). -/
def offOfArg (a : OffArg) : BitVec 16 :=
  match a with
  | .num off => off
  | .gpioReg r => gpioOffset r
  | .csrReg m => BitVec.ofNat 16 (4 * m.val)

/-- A line of the syntax (R61). -/
inductive Line where
  /-- `rd.<n> <dev>, <off>` -/
  | rd (n : Width) (dev : DevName) (off : OffArg)
  /-- `wr.<n> <dev>, <off>, <v>` -/
  | wr (n : Width) (dev : DevName) (off : OffArg) (v : Word)
  /-- `reset <dev>` -/
  | reset (dev : DevName)
  /-- `pin <dev>, <p>, <b>` -/
  | pin (dev : DevName) (p : BitVec 16) (b : Int)
  /-- `connect <dev>, <p> -> <sink>, <q>` -/
  | connect (dev : DevName) (p : BitVec 16) (sink : DevName) (q : Nat)
  /-- `byte <dev>, <byte>` -/
  | byte (dev : DevName) (x : Byte)
  /-- `save <dev>` -/
  | save (dev : DevName)
  /-- `restore <dev>, <record>` -/
  | restore (dev : DevName) (fields : Record)
deriving DecidableEq, Repr

/-- The request a line stands for (R61). -/
def assemble (l : Line) : Request :=
  match l with
  | .rd n dev off => Request.bare 0#4 n.bits (devOfName dev) (offOfArg off)
  | .wr n dev off v =>
    { Request.bare 1#4 n.bits (devOfName dev) (offOfArg off) with value := v }
  | .reset dev => Request.bare 2#4 0#2 (devOfName dev) 0#16
  | .pin dev p b => { Request.bare 3#4 0#2 (devOfName dev) p with level := b }
  | .connect dev p sink q =>
    { Request.bare 4#4 0#2 (devOfName dev) p with sink := devOfName sink, sinkPin := q }
  | .byte dev x => { Request.bare 5#4 0#2 (devOfName dev) 0#16 with byte := x }
  | .save dev => Request.bare 6#4 0#2 (devOfName dev) 0#16
  | .restore dev fields => { Request.bare 7#4 0#2 (devOfName dev) 0#16 with fields := fields }

/-- A pseudo-operation (R62). -/
inductive Pseudo where
  | set (g : DevName) (p : Fin 16)
  | clr (g : DevName) (p : Fin 16)
  | setmode (g : DevName) (p : Fin 16) (m : BitVec 2)
  | setpull (g : DevName) (p : Fin 16) (u : BitVec 2)
  | press (btn : DevName)
  | release (btn : DevName)
deriving DecidableEq, Repr

/-- `(x & ~(3 << 2p)) | (m << 2p)` (R62). -/
def putF2 (x : Word) (p : Fin 16) (m : BitVec 2) : Word :=
  (x &&& ~~~(3#32 <<< (2 * p.val))) ||| (m.setWidth 32 <<< (2 * p.val))

/-- The lines a pseudo-operation expands to (R62). `x` is the value the host holds from the first of two
requests, where there are two. -/
def Pseudo.expand (q : Pseudo) (x : Word) : List Line :=
  match q with
  | .set g p => [.wr .w4 g (.gpioReg .BSRR) (1#32 <<< p.val)]
  | .clr g p => [.wr .w4 g (.gpioReg .BSRR) (1#32 <<< (16 + p.val))]
  | .setmode g p m => [.rd .w4 g (.gpioReg .MODE), .wr .w4 g (.gpioReg .MODE) (putF2 x p m)]
  | .setpull g p u => [.rd .w4 g (.gpioReg .PUPD), .wr .w4 g (.gpioReg .PUPD) (putF2 x p u)]
  | .press btn => [.byte btn 0x01#8]
  | .release btn => [.byte btn 0x00#8]

end Sys2Proof.Machine
end

