-- ==== Sys2Proof/Safety.lean ====
section
/-! DEFINITION. What counts as a well-behaved state and a well-behaved run, in the terms the statements
use (spec/10_state.md R30, R33, R35, R36; spec/60_exceptions.md R116). -/

namespace Sys2Proof.Machine

open Sys2Proof.Config

/-- Every subscriber of a wire is a device of the system (R30, R56). -/
def Wire.sinksExist (s : State) (w : Wire) : Bool := w.subs.all fun k => s.hasDevice (sinkDev k)

/-- The wire at an endpoint, if there is one, has only subscribers that exist. -/
def endpointOk (s : State) (w : Option Wire) : Bool :=
  match w with
  | none => true
  | some w => w.sinksExist s

/-- The invariant of the block: the parameters are as the spec asks, every wire leads to devices that
exist, and the emulation is halted only because a fault was recorded and `HALT_ON_INVALID` holds. -/
abbrev State.Inv (s : State) : Prop :=
  s.cfg.wf ∧
  (∀ g ∈ s.gpios, ∀ p : Fin 64, endpointOk s g.out[p] = true) ∧
  (∀ b ∈ s.buttons, endpointOk s b.out = true) ∧
  (s.halted = true → s.cfg.haltOnInvalid = true ∧ s.faults ≠ [])

/-- The shadow invariant (R35): `ODR_old = ODR` in every GPIO controller. -/
abbrev State.ShadowsAgree (s : State) : Prop := ∀ g ∈ s.gpios, g.odrOld = g.odr

/-- The IDR invariant (R36): IDR bits 31:16 are 0 in every GPIO controller. -/
abbrev State.IdrHighZero (s : State) : Prop := ∀ g ∈ s.gpios, g.idr.extractLsb' 16 16 = 0#16

/-- A RESTORE request (R136). -/
def isRestore (i : Instr) : Bool :=
  match i with
  | .restore .. => true
  | _ => false

/-- The next request to be performed, if it decodes to one, is no RESTORE. -/
def State.nextIsNoRestore (s : State) : Bool :=
  match s.pending with
  | [] => true
  | r :: _ =>
    match decode r with
    | .ok i => !isRestore i
    | .error _ => true

/-- No fault has been recorded (90_conflicts.md C4): what a claim about a run may assume. -/
abbrev State.Clean (s : State) : Prop := s.faults = []

/-- The state a step answers, if it answers one. -/
def nextOf (r : Result) : Option State :=
  match r with
  | .next s => some s
  | .fault _ => none
  | .refused _ => none

/-! ### What a write or a byte makes the wires deliver (R79, R109, R112) -/

/-- One notification of a sink: the sink and the level delivered. -/
abbrev Delivery := Sink × Bool

/-- The notifications that driving an endpoint to level `b` causes (R109): none without a wire or with
the level unchanged, else one for each subscriber in registration order. -/
def notifications (w : Option Wire) (b : Bool) : List Delivery :=
  match w with
  | none => []
  | some w => if w.level = b then [] else w.subs.map fun k => (k, b)

/-- The wire at an endpoint after it was driven to level `b`. -/
def drivenWire (w : Option Wire) (b : Bool) : Option Wire := w.map fun w => { w with level := b }

/-- The update algorithm drives pin `i` (R79): ODR bit `i` differs from ODR_old's and the pin's MODE
field is not 00. -/
def Gpio.emits (g : Gpio) (i : Fin 16) : Bool :=
  (g.odr.getLsbD i.val != g.odrOld.getLsbD i.val) && f2 g.mode i != 0#2

/-- The notifications the update algorithm causes (R79), in order: the pins ascending, and for each pin
the subscribers in registration order. `g.odr` is ODR_new, `g.odrOld` is ODR_old. -/
def Gpio.notifies (g : Gpio) : List Delivery :=
  pins.flatMap fun i =>
    if g.emits i then notifications g.out[endpointOf i] (g.odr.getLsbD i.val) else []

/-- The wire at endpoint `p` after the update algorithm (R79, R87). -/
def Gpio.wireAfter (g : Gpio) (p : Fin 64) : Option Wire :=
  if h : p.val < 16 then
    if g.emits ⟨p.val, h⟩ then drivenWire g.out[p] (g.odr.getLsbD p.val) else g.out[p]
  else g.out[p]

/-- The bytes LED `n` emits on the given notifications (R113). -/
def ledBytes (n : Nat) (ds : List Delivery) : List Byte :=
  ds.filterMap fun d => if d.1 = .led n then some (if d.2 then 0x01#8 else 0x00#8) else none

/-- The last level delivered to a sink, or `old` if none was (R111: the last delivery wins). -/
def lastDelivered (k : Sink) (ds : List Delivery) (old : Bool) : Bool :=
  (((ds.filter fun d => d.1 = k).getLast?).map (·.2)).getD old

/-- `IDR[j]` of GPIO controller `n` after the given notifications (R86): the last level delivered to the
pin if its input gate is open, else unchanged; bits 31:16 never change. -/
def idrBitAfter (n : Nat) (g : Gpio) (ds : List Delivery) (j : Nat) : Bool :=
  if h : j < 16 then
    if f2 g.mode ⟨j, h⟩ = 0#2 ∧ f2 g.pupd ⟨j, h⟩ ≠ 0#2 then
      lastDelivered (.gpio n ⟨j, h⟩) ds (g.idr.getLsbD j)
    else g.idr.getLsbD j
  else g.idr.getLsbD j

end Sys2Proof.Machine
end

