-- ==== Sys2Proof/Certificates/Slice0/Obligations.lean ====
section
/-! DEFINITION. The statements for the provers, and before them the words they use, written from the
numbered rules of spec/ and not from the meanings they are about. -/

namespace Sys2Proof.Claims

open Sys2Proof.Machine Sys2Proof.Config

/-! ### Words the statements use -/

/-- The low `8n` bits of a word, as a number (R44). -/
def lowBytes (n : Width) (w : Word) : Nat := w.toNat % 2 ^ (8 * n.bytes)

/-- `Eff(old, v, n)` of R45, as a number: the value itself, or under MERGE the value in place of the
low `8n` bits of the old word. -/
def storedValue (nw : NarrowWrite) (old : Word) (v : BusVal) : Nat :=
  match nw with
  | .zeroExtend => v.zext.toNat
  | .merge => old.toNat - lowBytes v.width old + v.zext.toNat

/-- The 2-bit field of pin `i`, as a number (R9). -/
def field2 (r : Word) (i : Nat) : Nat := r.toNat / 4 ^ i % 4

/-- The request is a bus read of `n` bytes at `off` of device `k` of class `c` (R54, R55). -/
def isBusRead (r : Request) (c : DevClass) (k : Nat) (n : Width) (off : BitVec 16) : Prop :=
  r.word = mkWord 0#4 n.bits c.bits 0#8 off ∧ r.dev = ⟨c, k⟩

/-- The request is a bus write of the value `v` at `off` of device `k` of class `c` (R54 to R56). -/
def isBusWrite (r : Request) (c : DevClass) (k : Nat) (v : BusVal) (off : BitVec 16) : Prop :=
  r.word = mkWord 1#4 v.width.bits c.bits 0#8 off ∧ r.dev = ⟨c, k⟩ ∧
    lowBytes v.width r.value = v.zext.toNat

/-- The request's operands `(sink, q)` are the sink (R56). -/
def isSink (r : Request) (k : Sink) : Prop :=
  match k with
  | .gpio n q => r.sink = ⟨.gpio, n⟩ ∧ r.sinkPin = q.val
  | .led n => r.sink = ⟨.led, n⟩ ∧ r.sinkPin = 0

/-- A readable GPIO register: its offset, its read request and the value of its read rule. -/
structure GpioRead where
  off : BitVec 16
  instr : Nat → Width → Instr
  value : Gpio → Word

/-- The ten read rules (R64, R66, R68, R70, R72, R74, R76, R80, R82, R84). -/
def gpioReads : List GpioRead :=
  [⟨0x00, .gpioRdMode, fun g => g.mode⟩, ⟨0x04, .gpioRdOtype, fun g => g.otype⟩,
   ⟨0x08, .gpioRdOspeed, fun g => g.ospeed⟩, ⟨0x0C, .gpioRdPupd, fun g => g.pupd⟩,
   ⟨0x10, .gpioRdIdr, fun g => g.idr⟩, ⟨0x14, .gpioRdOdr, fun g => g.odr⟩,
   ⟨0x18, .gpioRdBsrr, fun _ => 0#32⟩, ⟨0x1C, .gpioRdLck, fun g => g.lck⟩,
   ⟨0x20, .gpioRdAfrl, fun g => g.afrl⟩, ⟨0x24, .gpioRdAfrh, fun g => g.afrh⟩]

/-- A GPIO register that a write only stores: its offset, its write request, the register and the
controller with the register replaced. -/
structure GpioStore where
  off : BitVec 16
  instr : Nat → BusVal → Instr
  get : Gpio → Word
  put : Gpio → Word → Gpio

/-- The seven configuration registers (R65, R67, R69, R71, R73, R75, R77). -/
def gpioStores : List GpioStore :=
  [⟨0x00, .gpioWrMode, fun g => g.mode, fun g w => { g with mode := w }⟩,
   ⟨0x04, .gpioWrOtype, fun g => g.otype, fun g w => { g with otype := w }⟩,
   ⟨0x08, .gpioWrOspeed, fun g => g.ospeed, fun g w => { g with ospeed := w }⟩,
   ⟨0x0C, .gpioWrPupd, fun g => g.pupd, fun g w => { g with pupd := w }⟩,
   ⟨0x1C, .gpioWrLck, fun g => g.lck, fun g w => { g with lck := w }⟩,
   ⟨0x20, .gpioWrAfrl, fun g => g.afrl, fun g w => { g with afrl := w }⟩,
   ⟨0x24, .gpioWrAfrh, fun g => g.afrh, fun g w => { g with afrh := w }⟩]

/-- The write request of every GPIO register but BSRR, by its offset. -/
def gpioWrites : List (BitVec 16 × (Nat → BusVal → Instr)) :=
  gpioStores.map (fun row => (row.off, row.instr)) ++ [(0x10, .gpioWrIdr), (0x14, .gpioWrOdr)]

/-- A CSR register: its number, its read request and its write request. -/
structure CsrReg where
  m : Fin 14
  read : Nat → Width → Instr
  write : Nat → BusVal → Instr

/-- The 14 CSR registers (R92 to R105). -/
def csrRegs : List CsrReg :=
  [⟨0, .csrRdReg0, .csrWrReg0⟩, ⟨1, .csrRdReg1, .csrWrReg1⟩, ⟨2, .csrRdReg2, .csrWrReg2⟩,
   ⟨3, .csrRdReg3, .csrWrReg3⟩, ⟨4, .csrRdReg4, .csrWrReg4⟩, ⟨5, .csrRdReg5, .csrWrReg5⟩,
   ⟨6, .csrRdReg6, .csrWrReg6⟩, ⟨7, .csrRdReg7, .csrWrReg7⟩, ⟨8, .csrRdReg8, .csrWrReg8⟩,
   ⟨9, .csrRdReg9, .csrWrReg9⟩, ⟨10, .csrRdReg10, .csrWrReg10⟩, ⟨11, .csrRdReg11, .csrWrReg11⟩,
   ⟨12, .csrRdReg12, .csrWrReg12⟩, ⟨13, .csrRdReg13, .csrWrReg13⟩]

/-- The two bus-fault rows. -/
def isFaultRow (i : Instr) : Bool :=
  match i with
  | .busBadwidth .. => true
  | .busInvalidOffset .. => true
  | _ => false

/-- What every LED holds after the notifications `ds` (R113). -/
def ledsReceived (s t : State) (ds : List Delivery) : Prop :=
  ∀ (n : Nat) (l : Led), s.leds[n]? = some l →
    t.leds[n]? = some { l with
      lastLevel := lastDelivered (.led n) ds l.lastLevel
      out := l.out ++ ledBytes n ds }

/-- What IDR of every GPIO controller holds after the notifications `ds` (R86, R111). -/
def idrsReceived (s t : State) (ds : List Delivery) : Prop :=
  ∀ (n : Nat) (h : Gpio), s.gpios[n]? = some h →
    ∃ h' : Gpio, t.gpios[n]? = some h' ∧ ∀ j, h'.idr.getLsbD j = idrBitAfter n h ds j

/-- The state after controller `k`, whose registers were set to those of `g`, ran the update algorithm
(R79): ODR_old takes ODR; the wire of every pin whose ODR bit changed and whose MODE field is not 00
takes the new level (`wireAfter`); the LEDs and the input pins receive the notifications, in order; and
nothing else changes. `g` has ODR_new and still the old ODR_old. -/
def updateOutcome (s t : State) (k : Nat) (g : Gpio) : Prop :=
  t = { s with gpios := t.gpios, leds := t.leds, reply := .done } ∧
  t.gpios.length = s.gpios.length ∧ t.leds.length = s.leds.length ∧
  (∃ g' : Gpio, t.gpios[k]? = some g' ∧
    g' = { g with idr := g'.idr, out := g'.out, odrOld := g.odr } ∧
    ∀ p : Fin 64, g'.out[p] = g.wireAfter p) ∧
  (∀ (n : Nat) (h : Gpio), n ≠ k → s.gpios[n]? = some h →
    ∃ h' : Gpio, t.gpios[n]? = some h' ∧ h' = { h with idr := h'.idr }) ∧
  ledsReceived s t g.notifies ∧ idrsReceived s t g.notifies

/-- The persisted fields of a GPIO controller in the order of R135. -/
def gpioRecord (g : Gpio) : Record :=
  [⟨.mode, 32, g.mode⟩, ⟨.otype, 32, g.otype⟩, ⟨.ospeed, 32, g.ospeed⟩, ⟨.pupd, 32, g.pupd⟩,
   ⟨.idr, 32, g.idr⟩, ⟨.odr, 32, g.odr⟩, ⟨.odr_old, 32, g.odrOld⟩, ⟨.bsr, 32, g.bsr⟩,
   ⟨.lck, 32, g.lck⟩, ⟨.afrl, 32, g.afrl⟩, ⟨.afrh, 32, g.afrh⟩]

/-- The persisted fields of a CSR bank in the order of R135. -/
def csrRecord (regs : Vector Word 14) : Record :=
  (List.finRange 14).map fun m => ⟨.reg m, 32, regs[m]⟩

/-- A record without its entries for a field (R136). -/
def without (f : SnapField) (fields : Record) : Record := fields.filter fun e => e.field != f

/-- The field's register in a GPIO controller (R135). -/
def gpioField (g : Gpio) (f : SnapField) : Word :=
  match f with
  | .mode => g.mode
  | .otype => g.otype
  | .ospeed => g.ospeed
  | .pupd => g.pupd
  | .idr => g.idr
  | .odr => g.odr
  | .odr_old => g.odrOld
  | .bsr => g.bsr
  | .lck => g.lck
  | .afrl => g.afrl
  | .afrh => g.afrh
  | .reg _ => 0#32
  | .lastLevel => 0#32

/-- The persisted fields of a device class (R135). -/
def persisted (c : DevClass) : List SnapField :=
  match c with
  | .gpio => [.mode, .otype, .ospeed, .pupd, .idr, .odr, .odr_old, .bsr, .lck, .afrl, .afrh]
  | .csr => (List.finRange 14).map .reg
  | .button => [.lastLevel]
  | .led => [.lastLevel]

/-- The devices a request names: its target, and the sink of a CONNECT (R56). -/
def devicesOf (i : Instr) : List DevRef :=
  match i with
  | .connectGpio k _ sink => [⟨.gpio, k⟩, sinkDev sink]
  | .connectButton k sink => [⟨.button, k⟩, sinkDev sink]
  | i => [(encode i).dev]

/-- A bus write of a register (R45, R48). -/
def isRegisterWrite (i : Instr) : Prop :=
  (∃ row ∈ gpioStores, ∃ k v, i = row.instr k v) ∨
  (∃ k v, i = .gpioWrIdr k v ∨ i = .gpioWrOdr k v ∨ i = .gpioWrBsrr k v) ∨
  (∃ row ∈ csrRegs, ∃ k v, i = row.write k v)

/-- The request goes to a CSR bank by way of its registers, its reset or its snapshot. -/
def usesCsr (i : Instr) : Prop :=
  (∃ row ∈ csrRegs, ∃ k, (∃ n, i = row.read k n) ∨ (∃ v, i = row.write k v)) ∨
  (∃ k, i = .resetCsr k) ∨ (∃ k, i = .save ⟨.csr, k⟩) ∨ (∃ k rec, i = .restore ⟨.csr, k⟩ rec)

/-- A controller without the registers that have no effect on any other state (R18, R19, R25, R26). -/
def dropInert (g : Gpio) : Gpio :=
  { g with otype := 0#32, ospeed := 0#32, lck := 0#32, afrl := 0#32, afrh := 0#32, bsr := 0#32 }

/-- A state without those registers and without the last reply. -/
def dropInertState (s : State) : State :=
  { s with gpios := s.gpios.map dropInert, reply := .none }

/-- Perform requests in order, stopping where one does not answer a next state. -/
def perform (is : List Instr) (s : State) : Option State :=
  is.foldlM (fun s i => nextOf (exec i s)) s

/-- The controllers named by the board's GPIO names. -/
def gpioNames : List (DevName × Nat) := [(.GPIOA, 0), (.GPIOB, 1)]

end Sys2Proof.Claims

open Sys2Proof Sys2Proof.Machine Sys2Proof.Config Sys2Proof.Claims

/-! ### Encoding -/

/-- R54 to R60: decoding the request of a well-formed instruction gives the instruction back, with every
operand at every value the encoding admits. -/
def Obligations.DecodeOfEncodeIsIdentity : Prop :=
  ∀ i : Instr, i.wellFormed = true → decode (encode i) = .ok i

/-- R58: the decoder answers well-formed instructions only. -/
def Obligations.DecodedInstructionsAreWellFormed : Prop :=
  ∀ (r : Request) (i : Instr), decode r = .ok i → i.wellFormed = true

/-- R59: a request that decodes to an instruction has a descriptor word that matches the instruction's
row of spec/opcode_table.json. -/
def Obligations.DecodedWordsMatchTheirTableRow : Prop :=
  ∀ (r : Request) (i : Instr), decode r = .ok i → r.word &&& i.row.mask = i.row.pattern

/-- R54, R57: no bit of a descriptor word is dropped: the encoder gives the decoded word and the device
back. -/
def Obligations.EncodeOfDecodeGivesTheWordBack : Prop :=
  ∀ (r : Request) (i : Instr), decode r = .ok i →
    (encode i).word = r.word ∧ (encode i).dev = r.dev

/-- R58 steps 2 to 5: the order in which a bus request is decided. -/
def Obligations.BusRequestsAreDecidedInOrder : Prop :=
  ∀ (r : Request) (kind : AccessKind), r.kindBits = kind.bits → r.zBits = 0#8 →
    r.clsBits = r.dev.cls.bits →
    ∃ i, decode r = .ok i ∧
      if r.dev.cls = .button ∨ r.dev.cls = .led then
        i = .busInvalidOffset kind r.wcBits r.dev r.argBits
      else if r.wcBits = 3#2 then i = .busBadwidth kind r.dev r.argBits
      else if r.argBits.toNat % 4 = 0 ∧ r.argBits ∈ defOffsets r.dev.cls then
        isFaultRow i = false ∧ (encode i).word = r.word
      else i = .busInvalidOffset kind r.wcBits r.dev r.argBits

/-- R60, R56: exactly the reserved and illegal descriptors are refused; a bus kind with a bad width, offset or
target is not refused but is a bus-fault row. -/
def Obligations.IllegalDescriptorsAreRefused : Prop :=
  (∀ r : Request,
    (8 ≤ r.kindBits.toNat ∨ r.zBits ≠ 0#8 ∨ r.clsBits ≠ r.dev.cls.bits ∨
     (2 ≤ r.kindBits.toNat ∧ r.wcBits ≠ 0#2) ∨
     (r.kindBits = 3#4 ∧ (r.dev.cls = .csr ∨ r.dev.cls = .button)) ∨
     (r.kindBits = 4#4 ∧ (r.dev.cls = .csr ∨ r.dev.cls = .led)) ∨
     (r.kindBits = 5#4 ∧ r.dev.cls ≠ .button) ∨
     (r.kindBits = 3#4 ∧ r.dev.cls = .gpio ∧ 15 < r.argBits.toNat) ∨
     (r.kindBits = 3#4 ∧ r.dev.cls = .led ∧ r.argBits ≠ 0#16) ∨
     (r.kindBits = 4#4 ∧ r.dev.cls = .gpio ∧ 63 < r.argBits.toNat) ∨
     (r.kindBits = 4#4 ∧ r.dev.cls = .button ∧ r.argBits ≠ 0#16) ∨
     (r.kindBits ∈ [2#4, 5#4, 6#4, 7#4] ∧ r.argBits ≠ 0#16) ∨
     (r.kindBits = 4#4 ∧
       ¬ (r.sink.cls = .gpio ∧ r.sinkPin ≤ 15 ∨ r.sink.cls = .led ∧ r.sinkPin = 0))) ↔
    ∃ e, decode r = .error e) ∧
  (∀ (r : Request) (kind : AccessKind), r.kindBits = kind.bits → r.zBits = 0#8 →
    r.clsBits = r.dev.cls.bits →
    (r.wcBits = 3#2 ∨ r.argBits.toNat % 4 ≠ 0 ∨ r.argBits ∉ defOffsets r.dev.cls) →
    ∃ i, decode r = .ok i ∧ isFaultRow i = true)

/-- R54, R59: words written out decode to the requests they stand for (95_test_vectors.md V-ENC). That a
bare word stands for a request to device 0 with its numeric operands 0 (value, level, sink, byte) is the
model's choice (log 2). -/
def Obligations.SampleWordsDecodeAsTheTableSays : Prop :=
  decodeTableWord 32 0x18000018 = some (.gpioWrBsrr 0 (.b32 0#32)) ∧
  decodeTableWord 32 0x14000018 = some (.gpioWrBsrr 0 (.b16 0#16)) ∧
  decodeTableWord 32 0x08000024 = some (.gpioRdAfrh 0 .w4) ∧
  decodeTableWord 32 0x09000028 = some (.csrRdReg10 0 .w4) ∧
  decodeTableWord 32 0x1C000018 = some (.busBadwidth .write ⟨.gpio, 0⟩ 0x18#16) ∧
  decodeTableWord 32 0x0E000000 = some (.busInvalidOffset .read 3#2 ⟨.button, 0⟩ 0#16) ∧
  decodeTableWord 32 0x3000000F = some (.pinInGpio 0 15 false) ∧
  decodeTableWord 32 0x4000003F = some (.connectGpio 0 63 (.gpio 0 0)) ∧
  decodeTableWord 32 0x52000000 = some (.byteInButton 0 0#8) ∧
  decodeTableWord 32 0x61000000 = some (.save ⟨.csr, 0⟩) ∧
  decodeTableWord 32 0x24000000 = none ∧ decodeTableWord 32 0x30000010 = none

/-! ### The step -/

/-- R14, R46, R49: a step performs the oldest presented request. It is exec of the decoded instruction
on the state without that request; a request that does not decode is refused. A state with no request
stays as it is (log 1), and a halted emulation stops (log 5). -/
def Obligations.StepPerformsTheOldestRequest : Prop :=
  ∀ s : State,
    (s.halted = true → step s = .fault .halted) ∧
    (s.halted = false → s.pending = [] → step s = .next s) ∧
    (∀ r rest i, s.halted = false → s.pending = r :: rest → decode r = .ok i →
      step s = exec i { s with pending := rest }) ∧
    (∀ r rest e, s.halted = false → s.pending = r :: rest → decode r = .error e →
      step s = .refused (.undecodable e))

/-- R11, R115: a request whose devices exist completes, but for a RESTORE; what does not complete is a
RESTORE refused for its record, or is refused because a device does not exist. That refusal is the model's
choice (log 8), and so is that no meaning answers a fault: an InvalidOffset is a next state (log 5). -/
def Obligations.RequestsToExistingDevicesComplete : Prop :=
  ∀ (i : Instr) (s : State),
    ((∀ d ∈ devicesOf i, s.hasDevice d = true) → isRestore i = false →
      ∃ t, exec i s = .next t) ∧
    ((∃ t, exec i s = .next t) ∨
      (∃ d ∈ devicesOf i, s.hasDevice d = false ∧ exec i s = .refused (.noSuchDevice d)) ∨
      (isRestore i = true ∧ exec i s = .refused .malformedRecord))

/-! ### Register reads -/

/-- R44 and the read rules of the ten GPIO registers: the request decodes from its descriptor, and it
answers the low `8n` bits of the register (of 0 for BSRR) and changes nothing else. -/
def Obligations.GpioReadsReturnTheRegister : Prop :=
  ∀ row ∈ gpioReads, ∀ (k : Nat) (n : Width) (s : State) (g : Gpio), s.gpios[k]? = some g →
    (∀ r, isBusRead r .gpio k n row.off → decode r = .ok (row.instr k n)) ∧
    ∃ v : BusVal, v.width = n ∧ v.zext.toNat = lowBytes n (row.value g) ∧
      exec (row.instr k n) s = .next { s with reply := .value v }

/-- R88: a CSR register is read at offset `4m`, its low `8n` bits are answered and nothing else
changes; a read above 0x34 or not at a multiple of 4 is the bus-fault row. -/
def Obligations.CsrReadsReturnTheRegister : Prop :=
  (∀ (k : Nat) (n : Width) (off : BitVec 16) (r : Request), isBusRead r .csr k n off →
    (0x34 < off.toNat ∨ off.toNat % 4 ≠ 0) →
    decode r = .ok (.busInvalidOffset .read n.bits ⟨.csr, k⟩ off)) ∧
  ∀ row ∈ csrRegs, ∀ (k : Nat) (n : Width) (s : State) (b : CsrBank), s.csrs[k]? = some b →
    (∀ r, isBusRead r .csr k n (BitVec.ofNat 16 (4 * row.m.val)) →
      decode r = .ok (row.read k n)) ∧
    ∃ v : BusVal, v.width = n ∧ v.zext.toNat = lowBytes n b.regs[row.m] ∧
      exec (row.read k n) s = .next { s with reply := .value v }

/-- R43: byte `j` of the value of a GPIO or CSR read is byte `off + j` of the register space,
little-endian. The byte view of a register space is the model's reading (log 9). -/
def Obligations.ReadBytesAreLittleEndian : Prop :=
  (∀ row ∈ gpioReads, ∀ (k : Nat) (n : Width) (s t : State) (v : BusVal) (j : Nat),
    exec (row.instr k n) s = .next t → t.reply = .value v → j < n.bytes →
    ∃ b : Byte, s.readByte ⟨.gpio, k⟩ (row.off.toNat + j) = some b ∧
      b.toNat = v.zext.toNat / 256 ^ j % 256) ∧
  (∀ row ∈ csrRegs, ∀ (k : Nat) (n : Width) (s t : State) (v : BusVal) (j : Nat),
    exec (row.read k n) s = .next t → t.reply = .value v → j < n.bytes →
    ∃ b : Byte, s.readByte ⟨.csr, k⟩ (4 * row.m.val + j) = some b ∧
      b.toNat = v.zext.toNat / 256 ^ j % 256)

/-! ### Register writes -/

/-- R67, R69, R71, R73, R75, R77: a write of OTYPE, OSPEED, PUPD, LCK, AFRL or AFRH stores the effective
value and nothing else changes: no wire, no other register, no other device. -/
def Obligations.ConfigurationWritesStoreAndNothingElse : Prop :=
  ∀ row ∈ gpioStores, row.off ≠ 0x00#16 → ∀ (k : Nat) (v : BusVal) (s : State) (g : Gpio), s.gpios[k]? = some g →
    (∀ r, isBusWrite r .gpio k v row.off → decode r = .ok (row.instr k v)) ∧
    ∃ w : Word, w.toNat = storedValue s.cfg.narrowWrite (row.get g) v ∧
      exec (row.instr k v) s =
        .next { s with gpios := s.gpios.set k (row.put g w), reply := .done }

/-- R45, R65: a write of MODE stores the effective value and nothing else changes. That it drives no wire is
the inference R65 marks as its own. -/
def Obligations.ModeWritesStoreAndNothingElse : Prop :=
  ∀ (k : Nat) (v : BusVal) (s : State) (g : Gpio), s.gpios[k]? = some g →
    (∀ r, isBusWrite r .gpio k v 0x00#16 → decode r = .ok (.gpioWrMode k v)) ∧
    ∃ w : Word, w.toNat = storedValue s.cfg.narrowWrite g.mode v ∧
      exec (.gpioWrMode k v) s =
        .next { s with gpios := s.gpios.set k { g with mode := w }, reply := .done }

/-- R81, R117: a write of IDR is Done and changes nothing. -/
def Obligations.IdrWritesAreIgnored : Prop :=
  ∀ (k : Nat) (v : BusVal) (s : State) (g : Gpio), s.gpios[k]? = some g →
    (∀ r, isBusWrite r .gpio k v 0x10#16 → decode r = .ok (.gpioWrIdr k v)) ∧
    exec (.gpioWrIdr k v) s = .next { s with reply := .done }

/-- R89, R90: a write of a CSR register stores the effective value in that register and changes nothing
else. -/
def Obligations.CsrWritesStoreOneRegister : Prop :=
  ∀ row ∈ csrRegs, ∀ (k : Nat) (v : BusVal) (s : State) (b : CsrBank), s.csrs[k]? = some b →
    (∀ r, isBusWrite r .csr k v (BitVec.ofNat 16 (4 * row.m.val)) →
      decode r = .ok (row.write k v)) ∧
    ∃ w : Word, w.toNat = storedValue s.cfg.narrowWrite b.regs[row.m] v ∧
      exec (row.write k v) s =
        .next { s with
          csrs := s.csrs.set k { b with regs := b.regs.set row.m.val w }
          reply := .done }

/-- R83 with R79 and R87: a write of ODR stores the effective value, drives exactly the pins whose bit
changed and whose MODE field is not 00, sets ODR_old and leaves the rest. -/
def Obligations.OdrWriteRunsTheUpdateAlgorithm : Prop :=
  ∀ (k : Nat) (v : BusVal) (s : State) (g : Gpio), s.gpios[k]? = some g →
    (∀ r, isBusWrite r .gpio k v 0x14#16 → decode r = .ok (.gpioWrOdr k v)) ∧
    ∃ (w : Word) (t : State), w.toNat = storedValue s.cfg.narrowWrite g.odr v ∧
      exec (.gpioWrOdr k v) s = .next t ∧ updateOutcome s t k { g with odr := w }

/-- R85 with R79: a write of BSRR keeps the zero-extended value as `bsr`, sets and then clears ODR bits
15:0 (the clear wins), leaves ODR bits 31:16, and runs the update algorithm once. -/
def Obligations.BsrrWriteSetsThenClears : Prop :=
  ∀ (k : Nat) (v : BusVal) (s : State) (g : Gpio), s.gpios[k]? = some g →
    (∀ r, isBusWrite r .gpio k v 0x18#16 → decode r = .ok (.gpioWrBsrr k v)) ∧
    ∃ (w : Word) (t : State),
      (∀ j, w.getLsbD j =
        if j < 16 then
          if v.zext.getLsbD (16 + j) then false
          else if v.zext.getLsbD j then true else g.odr.getLsbD j
        else g.odr.getLsbD j) ∧
      exec (.gpioWrBsrr k v) s = .next t ∧
      updateOutcome s t k { g with odr := w, bsr := v.zext }

/-- R79, R83, R85: performing any register write twice in a row leaves the same state as performing it
once, an inference R48 marks as its own. -/
def Obligations.RegisterWritesAreIdempotent : Prop :=
  ∀ (i : Instr) (s t : State), isRegisterWrite i → exec i s = .next t → exec i t = .next t

/-- XQ §8's round trip (95_test_vectors.md V-SRC-1; R45): for every GPIO register but BSRR and every CSR
register, writing back what a read answered and reading again answers the same value, under both settings
of NARROW_WRITE. -/
def Obligations.ReadWriteReadRoundTrips : Prop :=
  (∀ rd ∈ gpioReads, ∀ wr ∈ gpioWrites, rd.off = wr.1 →
    ∀ (k : Nat) (n : Width) (s s1 s2 : State) (v : BusVal),
      exec (rd.instr k n) s = .next s1 → s1.reply = .value v →
      exec (wr.2 k v) s1 = .next s2 → exec (rd.instr k n) s2 = .next { s2 with reply := .value v }) ∧
  (∀ row ∈ csrRegs, ∀ (k : Nat) (n : Width) (s s1 s2 : State) (v : BusVal),
      exec (row.read k n) s = .next s1 → s1.reply = .value v →
      exec (row.write k v) s1 = .next s2 →
      exec (row.read k n) s2 = .next { s2 with reply := .value v })

/-- R45: under ZERO_EXTEND a 1-byte write of MODE makes the pins 4 to 15 inputs, an inference R141 marks
as its own; under MERGE it leaves their fields. -/
def Obligations.ByteWriteOfModeAndTheOtherPins : Prop :=
  ∀ (k : Nat) (x : BitVec 8) (s : State) (g : Gpio), s.gpios[k]? = some g →
    ∃ (t : State) (g' : Gpio), exec (.gpioWrMode k (.b8 x)) s = .next t ∧
      t.gpios[k]? = some g' ∧
      ∀ i, 4 ≤ i → i < 16 →
        field2 g'.mode i = if s.cfg.narrowWrite = .merge then field2 g.mode i else 0

/-! ### The input path and the interconnect -/

/-- R63: when the two gates of a pin are open, and that they never both are, an inference R63 marks as its
own. -/
def Obligations.PinGatesAreNeverBothOpen : Prop :=
  ∀ (g : Gpio) (i : Fin 16),
    (g.outEnabled i = true ↔ field2 g.mode i.val ≠ 0) ∧
    (g.inEnabled i = true ↔ field2 g.mode i.val = 0 ∧ field2 g.pupd i.val ≠ 0) ∧
    ¬ (g.outEnabled i = true ∧ g.inEnabled i = true)

/-- R86: an input event sets IDR bit `pin` to the level if PUPD's field is not 00 and MODE's field is 00;
otherwise, and of everything else, nothing changes. -/
def Obligations.InputEventSamplesThroughTheGate : Prop :=
  ∀ (k : Nat) (pin : Fin 16) (b : Bool) (s : State) (g : Gpio), s.gpios[k]? = some g →
    (∀ r : Request, r.word = mkWord 3#4 0#2 0#2 0#8 (BitVec.ofNat 16 pin.val) →
      r.dev = ⟨.gpio, k⟩ → (b = true ↔ r.level ≠ 0) → decode r = .ok (.pinInGpio k pin b)) ∧
    ∃ w : Word,
      (∀ j, w.getLsbD j =
        if j = pin.val ∧ field2 g.pupd pin.val ≠ 0 ∧ field2 g.mode pin.val = 0 then b
        else g.idr.getLsbD j) ∧
      exec (.pinInGpio k pin b) s =
        .next { s with gpios := s.gpios.set k { g with idr := w }, reply := .done }

/-- R113: a level delivered to an LED is kept and emitted as one byte, on every delivery. -/
def Obligations.LedEmitsEveryDelivery : Prop :=
  ∀ (k : Nat) (b : Bool) (s : State) (l : Led), s.leds[k]? = some l →
    (∀ r : Request, r.word = 0x33000000#32 → r.dev = ⟨.led, k⟩ → (b = true ↔ r.level ≠ 0) →
      decode r = .ok (.pinInLed k b)) ∧
    exec (.pinInLed k b) s =
      .next { s with
        leds := s.leds.set k { l with
          lastLevel := b
          out := l.out ++ [if b then 0x01#8 else 0x00#8] }
        reply := .done }

/-- R112 with R109: a byte sets the Button's level to "non-zero"; its wire takes that level, and only if
the level changed the subscribers are notified, in registration order. -/
def Obligations.ButtonByteDrivesItsWire : Prop :=
  ∀ (k : Nat) (x : Byte) (s : State) (u : Button), s.buttons[k]? = some u →
    (∀ r : Request, r.word = 0x52000000#32 → r.dev = ⟨.button, k⟩ → r.byte = x →
      decode r = .ok (.byteInButton k x)) ∧
    ∃ (b : Bool) (t : State), (b = true ↔ x.toNat ≠ 0) ∧ exec (.byteInButton k x) s = .next t ∧
      t = { s with
        gpios := t.gpios
        leds := t.leds
        buttons := s.buttons.set k { u with lastLevel := b, out := drivenWire u.out b }
        reply := .done } ∧
      t.gpios.length = s.gpios.length ∧ t.leds.length = s.leds.length ∧
      (∀ (n : Nat) (h : Gpio), s.gpios[n]? = some h →
        ∃ h' : Gpio, t.gpios[n]? = some h' ∧ h' = { h with idr := h'.idr }) ∧
      ledsReceived s t (notifications u.out b) ∧ idrsReceived s t (notifications u.out b)

/-- R108: CONNECT appends the subscriber last, at a new wire of level 0 if the endpoint has none, and
changes nothing else. -/
def Obligations.ConnectAppendsTheSubscriberLast : Prop :=
  ∀ (k : Nat) (sink : Sink) (s : State), s.hasDevice (sinkDev sink) = true →
    (∀ (p : Fin 64) (g : Gpio), s.gpios[k]? = some g →
      (∀ r : Request, r.word = mkWord 4#4 0#2 0#2 0#8 (BitVec.ofNat 16 p.val) →
        r.dev = ⟨.gpio, k⟩ → isSink r sink → decode r = .ok (.connectGpio k p sink)) ∧
      ∃ w : Wire,
        (g.out[p] = none → w = ⟨false, [sink]⟩) ∧
        (∀ w0, g.out[p] = some w0 → w = ⟨w0.level, w0.subs ++ [sink]⟩) ∧
        exec (.connectGpio k p sink) s =
          .next { s with
            gpios := s.gpios.set k { g with out := g.out.set p.val (some w) }
            reply := .done }) ∧
    (∀ u : Button, s.buttons[k]? = some u →
      (∀ r : Request, r.word = 0x42000000#32 → r.dev = ⟨.button, k⟩ → isSink r sink →
        decode r = .ok (.connectButton k sink)) ∧
      ∃ w : Wire,
        (u.out = none → w = ⟨false, [sink]⟩) ∧
        (∀ w0, u.out = some w0 → w = ⟨w0.level, w0.subs ++ [sink]⟩) ∧
        exec (.connectButton k sink) s =
          .next { s with buttons := s.buttons.set k { u with out := some w }, reply := .done })

/-- R30, R87, R107, R112: over any step no wire of a GPIO endpoint or of a Button is lost, no subscriber is
lost or reordered, and the level of a wire at a GPIO endpoint 16 to 63 never changes. -/
def Obligations.WiresOnlyGainSubscribers : Prop :=
  ∀ (s t : State) (k : Nat) (w : Wire), step s = .next t →
    (∀ (g : Gpio) (p : Fin 64), s.gpios[k]? = some g → g.out[p] = some w →
      ∃ (g' : Gpio) (w' : Wire), t.gpios[k]? = some g' ∧ g'.out[p] = some w' ∧
        w.subs <+: w'.subs ∧ (16 ≤ p.val → w'.level = w.level)) ∧
    (∀ u : Button, s.buttons[k]? = some u → u.out = some w →
      ∃ (u' : Button) (w' : Wire), t.buttons[k]? = some u' ∧ u'.out = some w' ∧
        w.subs <+: w'.subs)

/-! ### Reset, save and restore -/

/-- R129 with R27: the registers after RESET.GPIO; wires, identity, placement and all else stay. -/
def Obligations.GpioResetLoadsTheVector : Prop :=
  ∀ (k : Nat) (s : State) (g : Gpio), s.gpios[k]? = some g →
    (∀ r : Request, r.word = 0x20000000#32 → r.dev = ⟨.gpio, k⟩ →
      decode r = .ok (.resetGpio k)) ∧
    ∃ x : GpioVector,
      (g.id = .A → x = s.cfg.gpioReset.a) ∧ (g.id = .B → x = s.cfg.gpioReset.b) ∧
      (g.id = .GENERIC → x = s.cfg.gpioReset.generic) ∧
      exec (.resetGpio k) s =
        .next { s with
          gpios := s.gpios.set k { g with
            mode := x.mode, pupd := x.pupd, ospeed := x.ospeed
            otype := 0#32, idr := 0#32, odr := 0#32, odrOld := 0#32, bsr := 0#32, lck := 0#32
            afrl := 0#32, afrh := 0#32 }
          reply := .done }

/-- R130 with R29: RESET.CSR loads every register with RCC_RESET, so that AHBLPENR reads 0x0101903F. -/
def Obligations.CsrResetLoadsTheTable : Prop :=
  ∀ (k : Nat) (s : State) (b : CsrBank), s.csrs[k]? = some b →
    (∀ r : Request, r.word = 0x21000000#32 → r.dev = ⟨.csr, k⟩ → decode r = .ok (.resetCsr k)) ∧
    ∃ (t : State) (b' : CsrBank), exec (.resetCsr k) s = .next t ∧
      t = { s with csrs := s.csrs.set k b', reply := .done } ∧ b'.place = b.place ∧
      (∀ m : Fin 14, b'.regs[m] = s.cfg.rccReset[m]) ∧
      (s.cfg.wf → b'.regs[s.cfg.ahblpenr] = 0x0101903F#32)

/-- R131: RESET.BUTTON and RESET.LED clear `lastLevel`; no wire is driven, no byte is emitted and the LED
stream stays. -/
def Obligations.ButtonAndLedResetClearTheLevel : Prop :=
  ∀ (k : Nat) (s : State),
    (∀ r : Request, r.word = 0x22000000#32 → r.dev = ⟨.button, k⟩ →
      decode r = .ok (.resetButton k)) ∧
    (∀ r : Request, r.word = 0x23000000#32 → r.dev = ⟨.led, k⟩ → decode r = .ok (.resetLed k)) ∧
    (∀ u : Button, s.buttons[k]? = some u →
      exec (.resetButton k) s =
        .next { s with
          buttons := s.buttons.set k { u with lastLevel := false }
          reply := .done }) ∧
    (∀ l : Led, s.leds[k]? = some l →
      exec (.resetLed k) s =
        .next { s with leds := s.leds.set k { l with lastLevel := false }, reply := .done })

/-- R129 to R131: two resets of a device in a row leave the same state as one, an inference R132 marks as
its own. -/
def Obligations.ResetIsIdempotent : Prop :=
  ∀ (k : Nat) (i : Instr) (s t : State),
    i ∈ [Instr.resetGpio k, .resetCsr k, .resetButton k, .resetLed k] →
    exec i s = .next t → exec i t = .next t

/-- R135: SAVE supplies the persisted fields in the exact order and changes nothing. -/
def Obligations.SaveSuppliesTheFieldsInOrder : Prop :=
  ∀ (k : Nat) (s : State),
    (∀ (r : Request) (c : DevClass), r.word = mkWord 6#4 0#2 c.bits 0#8 0#16 → r.dev = ⟨c, k⟩ →
      decode r = .ok (.save ⟨c, k⟩)) ∧
    (∀ g, s.gpios[k]? = some g →
      exec (.save ⟨.gpio, k⟩) s = .next { s with reply := .saved (gpioRecord g) }) ∧
    (∀ b, s.csrs[k]? = some b →
      exec (.save ⟨.csr, k⟩) s = .next { s with reply := .saved (csrRecord b.regs) }) ∧
    (∀ u, s.buttons[k]? = some u →
      ∃ e : SnapEntry, e.field = .lastLevel ∧ e.width = s.cfg.snapLevelWidth ∧
        (1 ≤ e.width → e.value.toNat = if u.lastLevel then 1 else 0) ∧
        exec (.save ⟨.button, k⟩) s = .next { s with reply := .saved [e] }) ∧
    (∀ l, s.leds[k]? = some l →
      ∃ e : SnapEntry, e.field = .lastLevel ∧ e.width = s.cfg.snapLevelWidth ∧
        (1 ≤ e.width → e.value.toNat = if l.lastLevel then 1 else 0) ∧
        exec (.save ⟨.led, k⟩) s = .next { s with reply := .saved [e] })

/-- R136: a RESTORE of a complete record takes every field verbatim (a level as non-zero) and drives,
emits and records nothing. The record's form is the model's reading (log 6). -/
def Obligations.RestoreTakesEveryFieldVerbatim : Prop :=
  ∀ (k : Nat) (s : State),
    (∀ g x : Gpio, s.gpios[k]? = some g →
      exec (.restore ⟨.gpio, k⟩ (gpioRecord x)) s =
        .next { s with
          gpios := s.gpios.set k { x with id := g.id, out := g.out, place := g.place }
          reply := .done }) ∧
    (∀ (b : CsrBank) (regs : Vector Word 14), s.csrs[k]? = some b →
      exec (.restore ⟨.csr, k⟩ (csrRecord regs)) s =
        .next { s with csrs := s.csrs.set k { b with regs := regs }, reply := .done }) ∧
    (∀ (u : Button) (x : BitVec s.cfg.snapLevelWidth), s.buttons[k]? = some u →
      exec (.restore ⟨.button, k⟩ [⟨.lastLevel, s.cfg.snapLevelWidth, x⟩]) s =
        .next { s with
          buttons := s.buttons.set k { u with lastLevel := decide (x.toNat ≠ 0) }
          reply := .done }) ∧
    (∀ (l : Led) (x : BitVec s.cfg.snapLevelWidth), s.leds[k]? = some l →
      exec (.restore ⟨.led, k⟩ [⟨.lastLevel, s.cfg.snapLevelWidth, x⟩]) s =
        .next { s with
          leds := s.leds.set k { l with lastLevel := decide (x.toNat ≠ 0) }
          reply := .done })

/-- R136: a record that lacks a persisted field is refused, unless the field is LEGACY_FIELD. -/
def Obligations.RestoreRefusesAMissingField : Prop :=
  ∀ (d : DevRef) (rec : Record) (f : SnapField) (s : State), s.hasDevice d = true →
    f ∈ persisted d.cls → (∀ e ∈ rec, e.field ≠ f) → s.cfg.legacyField ≠ some (d.cls, f) →
    exec (.restore d rec) s = .refused .malformedRecord

/-- R136: a record of any class without LEGACY_FIELD leaves that field unchanged and sets the others. The
record's form is the model's reading (log 6). -/
def Obligations.RestoreToleratesTheLegacyField : Prop :=
  ∀ (k : Nat) (s : State) (f : SnapField),
    (∀ g x : Gpio, s.gpios[k]? = some g → s.cfg.legacyField = some (.gpio, f) →
      ∃ (t : State) (g' : Gpio),
        exec (.restore ⟨.gpio, k⟩ (without f (gpioRecord x))) s = .next t ∧
        t = { s with gpios := s.gpios.set k g', reply := .done } ∧
        g'.id = g.id ∧ g'.out = g.out ∧ g'.place = g.place ∧
        ∀ f' ∈ persisted .gpio, gpioField g' f' = gpioField (if f' = f then g else x) f') ∧
    (∀ (b : CsrBank) (regs : Vector Word 14), s.csrs[k]? = some b →
      s.cfg.legacyField = some (.csr, f) →
      ∃ regs' : Vector Word 14,
        (∀ m : Fin 14, regs'[m] = if f = .reg m then b.regs[m] else regs[m]) ∧
        exec (.restore ⟨.csr, k⟩ (without f (csrRecord regs))) s =
          .next { s with csrs := s.csrs.set k { b with regs := regs' }, reply := .done }) ∧
    (∀ (u : Button) (x : BitVec s.cfg.snapLevelWidth), s.buttons[k]? = some u →
      s.cfg.legacyField = some (.button, f) →
      exec (.restore ⟨.button, k⟩ (without f [⟨.lastLevel, s.cfg.snapLevelWidth, x⟩])) s =
        .next { s with
          buttons := s.buttons.set k { u with
            lastLevel := if f = .lastLevel then u.lastLevel else decide (x.toNat ≠ 0) }
          reply := .done }) ∧
    (∀ (l : Led) (x : BitVec s.cfg.snapLevelWidth), s.leds[k]? = some l →
      s.cfg.legacyField = some (.led, f) →
      exec (.restore ⟨.led, k⟩ (without f [⟨.lastLevel, s.cfg.snapLevelWidth, x⟩])) s =
        .next { s with
          leds := s.leds.set k { l with
            lastLevel := if f = .lastLevel then l.lastLevel else decide (x.toNat ≠ 0) }
          reply := .done })

/-- R135, R136: restoring the record that SAVE supplied changes no device. -/
def Obligations.RestoreAfterSaveIsIdentity : Prop :=
  ∀ (d : DevRef) (s t : State) (rec : Record), s.cfg.wf → exec (.save d) s = .next t →
    t.reply = .saved rec → exec (.restore d rec) t = .next { t with reply := .done }

/-! ### Faults -/

/-- R41, R116: a presented bus access that is not valid appends (dev, off, kind) to FAULTS, answers the
fault, and changes no device. Whether the host then halts (`h`) is left open here. -/
def Obligations.InvalidAccessRecordsAFaultAndNothingElse : Prop :=
  ∀ (s : State) (r : Request) (rest : List Request) (kind : AccessKind), s.halted = false →
    s.pending = r :: rest → r.kindBits = kind.bits → r.zBits = 0#8 →
    r.clsBits = r.dev.cls.bits → s.hasDevice r.dev = true →
    ¬ (r.wcBits ≠ 3#2 ∧ r.argBits.toNat % 4 = 0 ∧ r.argBits ∈ defOffsets r.dev.cls) →
    ∃ h : Bool, step s = .next { s with
      pending := rest
      faults := s.faults ++ [⟨r.dev, r.argBits, kind⟩]
      reply := .fault ⟨r.dev, r.argBits, kind⟩
      halted := h }

/-- R116: the two bus-fault rows complete in that fault, whatever their fields. The `halted` bit is the
model's choice (log 5): with HALT_ON_INVALID the emulation is halted from then on. -/
def Obligations.FaultRowsComplete : Prop :=
  ∀ (s : State) (kind : AccessKind) (wc : BitVec 2) (dev : DevRef) (off : BitVec 16),
    s.hasDevice dev = true →
    ∃ t, t = { s with
        faults := s.faults ++ [⟨dev, off, kind⟩]
        reply := .fault ⟨dev, off, kind⟩
        halted := s.halted || s.cfg.haltOnInvalid } ∧
      exec (.busBadwidth kind dev off) s = .next t ∧
      exec (.busInvalidOffset kind wc dev off) s = .next t

/-- R33, R119: over any step FAULTS only grows, by at most one entry. -/
def Obligations.FaultLogOnlyGrows : Prop :=
  ∀ s t : State, step s = .next t →
    ∃ es : List FaultEntry, t.faults = s.faults ++ es ∧ es.length ≤ 1

/-! ### Invariants and rules about every step -/

/-- R29, R30: every step keeps the invariant: the parameters as the spec asks, and wires that lead to
devices that exist. That a CONNECT to a missing sink is refused, on which the wires' part rests, is the
model's choice (log 8), and so is the part on the halt: only after a fault and under HALT_ON_INVALID
(log 5). -/
def Obligations.StepKeepsTheInvariant : Prop :=
  ∀ s t : State, s.Inv → step s = .next t → t.Inv

/-- R29, R30, R35, R36: the invariants hold after reset. That the parameters there are as the spec asks rests
on the model's values for them: AHBLPENR at 0x28 (log 4, presumed) and 8-bit levels (log 6, the model's
choice); that the machine is not halted is the model's choice (log 5). -/
def Obligations.ResetMeetsTheInvariant : Prop :=
  State.reset.Inv ∧ State.reset.ShadowsAgree ∧ State.reset.IdrHighZero

/-- R79, R129: every step but a RESTORE keeps `ODR_old = ODR` in every controller, an inference R35
marks as its own. -/
def Obligations.ShadowsAgreeButForRestore : Prop :=
  ∀ s t : State, s.ShadowsAgree → s.nextIsNoRestore = true → step s = .next t → t.ShadowsAgree

/-- R21, R86: every step but a RESTORE keeps IDR bits 31:16 at 0 in every controller, an inference R36
marks as its own. -/
def Obligations.IdrHighBitsStayZeroButForRestore : Prop :=
  ∀ s t : State, s.IdrHighZero → s.nextIsNoRestore = true → step s = .next t → t.IdrHighZero

/-- R7, R16, R27: no step changes a parameter, the number of devices, an identity or a placement. -/
def Obligations.StepKeepsTheConfiguration : Prop :=
  ∀ s t : State, step s = .next t →
    t.cfg = s.cfg ∧ t.gpios.map (fun g => (g.id, g.place)) = s.gpios.map (fun g => (g.id, g.place)) ∧
    t.csrs.map (·.place) = s.csrs.map (·.place) ∧
    t.buttons.map (·.place) = s.buttons.map (·.place) ∧
    t.leds.map (·.place) = s.leds.map (·.place)

/-- R32: over any step an LED's stream only grows at its end. -/
def Obligations.LedStreamsOnlyGrow : Prop :=
  ∀ (s t : State) (k : Nat) (l l' : Led), step s = .next t → s.leds[k]? = some l →
    t.leds[k]? = some l' → l.out <+: l'.out

/-- R91: no CSR value affects any other device: a request that does not go to a CSR bank does the same
whatever the CSR banks hold, and leaves them as they are. -/
def Obligations.CsrValuesAffectNothingElse : Prop :=
  ∀ (i : Instr) (s : State) (banks : List CsrBank), ¬ usesCsr i → banks.length = s.csrs.length →
    (∀ t, exec i s = .next t → t.csrs = s.csrs ∧
      exec i { s with csrs := banks } = .next { t with csrs := banks }) ∧
    (∀ e, exec i s = .refused e → exec i { s with csrs := banks } = .refused e)

/-- R18, R19, R24 to R26: OTYPE, OSPEED, LCK, AFRL, AFRH and `bsr` have no effect on any other state: two
states that differ in them alone stay so over every request, replies aside. -/
def Obligations.InertRegistersAffectNothingElse : Prop :=
  ∀ (i : Instr) (s s' t : State), dropInertState s = dropInertState s' → exec i s = .next t →
    ∃ t', exec i s' = .next t' ∧ dropInertState t = dropInertState t'

/-! ### Hazards -/

/-- R79, R83: a change made while the pins are inputs is consumed: after `ODR <- v` and any MODE write, the
same ODR write changes no wire, no LED and no IDR, an inference R138 marks as its own. -/
def Obligations.RepeatedOdrWriteEmitsNothing : Prop :=
  ∀ (k : Nat) (v m : BusVal) (s : State), s.hasDevice ⟨.gpio, k⟩ = true →
    ∃ t, perform [.gpioWrOdr k v, .gpioWrMode k m] s = some t ∧
      exec (.gpioWrOdr k v) t = .next t

/-- R109, R129: after RESET.GPIO a wire that held level 1 suppresses the next drive to 1, an inference
R140 marks as its own: only ODR, ODR_old and the reply change. The pin is an output alone in MODE, and the
write sets its bit alone. -/
def Obligations.StaleWireCacheSuppressesTheDrive : Prop :=
  ∀ (k : Nat) (i : Fin 16) (s : State) (g : Gpio) (w : Wire), s.gpios[k]? = some g →
    g.out[endpointOf i] = some w → w.level = true →
    ∃ (t t' : State) (h : Gpio),
      perform [.resetGpio k, .gpioWrMode k (.b32 (BitVec.ofNat 32 (4 ^ i.val)))] s = some t ∧
      t.gpios[k]? = some h ∧ h.odr = 0#32 ∧
      exec (.gpioWrOdr k (.b32 (BitVec.ofNat 32 (2 ^ i.val)))) t = .next t' ∧
      t' = { t with
        gpios := t.gpios.set k { h with
          odr := BitVec.ofNat 32 (2 ^ i.val)
          odrOld := BitVec.ofNat 32 (2 ^ i.val) }
        reply := .done }

/-! ### Construction, addressing and syntax -/

/-- R133, R114: connecting the board's devices as R114 says and resetting every device gives the state
after reset. -/
def Obligations.BoardConstructionGivesTheResetState : Prop :=
  (perform [.connectButton 0 (.gpio 0 1), .connectGpio 1 6 (.led 0), .connectGpio 1 7 (.led 1),
      .resetGpio 0, .resetGpio 1, .resetCsr 0, .resetButton 0, .resetLed 0, .resetLed 1]
    State.created).map (fun s => { s with reply := .none }) = some State.reset

/-- R40: a system bus address in a device's region reaches that device at the offset from its base, the
regions not overlapping there; an address in no region reaches none. -/
def Obligations.BusAddressesReachTheirDevice : Prop :=
  ∀ (s : State) (a : Nat),
    (∀ d p, s.placeOf d = some p → p.base ≤ a → a < p.base + p.size →
      (∀ d' p', s.placeOf d' = some p' → d' ≠ d → ¬ (p'.base ≤ a ∧ a < p'.base + p'.size)) →
      s.busTarget a = some (d, a - p.base)) ∧
    ((∀ d p, s.placeOf d = some p → ¬ (p.base ≤ a ∧ a < p.base + p.size)) →
      s.busTarget a = none)

/-- R61, R62: `setmode` and `setpull` expand to a 4-byte read and a 4-byte write of MODE or PUPD whose
value has the new field at the pin and the old fields elsewhere. -/
def Obligations.SetmodeChangesOneField : Prop :=
  ∀ g ∈ gpioNames, ∀ (p : Fin 16) (m : BitVec 2) (x : Word),
    ∃ w : Word,
      (∀ i, i < 16 → field2 w i = if i = p.val then m.toNat else field2 x i) ∧
      ((Pseudo.setmode g.1 p m).expand x).map (fun l => decode (assemble l)) =
        [.ok (.gpioRdMode g.2 .w4), .ok (.gpioWrMode g.2 (.b32 w))] ∧
      ((Pseudo.setpull g.1 p m).expand x).map (fun l => decode (assemble l)) =
        [.ok (.gpioRdPupd g.2 .w4), .ok (.gpioWrPupd g.2 (.b32 w))]

/-- R62 with R85: `set` and `clr` expand to one BSRR write that makes ODR bit `p` 1 or 0 and leaves the
other ODR bits. -/
def Obligations.SetAndClrChangeOneOutputBit : Prop :=
  ∀ g ∈ gpioNames, ∀ (p : Fin 16) (x : Word) (b : Bool) (s : State) (c : Gpio),
    s.gpios[g.2]? = some c →
    ∃ (i : Instr) (t : State) (c' : Gpio),
      ((if b then Pseudo.set g.1 p else Pseudo.clr g.1 p).expand x).map
        (fun l => decode (assemble l)) = [.ok i] ∧
      exec i s = .next t ∧ t.gpios[g.2]? = some c' ∧
      ∀ j, c'.odr.getLsbD j = if j = p.val then b else c.odr.getLsbD j
end

