-- ==== Sys2Proof/Laws/Decode.lean ====
section
/-! SUPPORT. The descriptor's fields (spec/30_encoding.md R54): reading back what `mkWord` lays out. -/

namespace Sys2Proof

section fields
variable (k : BitVec 4) (wc c : BitVec 2) (z : BitVec 8) (a : BitVec 16)

/-- A descriptor as a number: the fields at their places. -/
theorem mkWord_toNat :
    (mkWord k wc c z a).toNat =
      k.toNat * 2 ^ 28 + wc.toNat * 2 ^ 26 + c.toNat * 2 ^ 24 + z.toNat * 2 ^ 16 + a.toNat := by
  have h1 := wc.isLt
  have h2 := c.isLt
  have h3 := z.isLt
  have h4 := a.isLt
  simp only [mkWord, BitVec.toNat_append]
  rw [← Nat.shiftLeft_add_eq_or_of_lt h1, ← Nat.shiftLeft_add_eq_or_of_lt h2,
    ← Nat.shiftLeft_add_eq_or_of_lt h3, ← Nat.shiftLeft_add_eq_or_of_lt h4]
  simp only [Nat.shiftLeft_eq]
  omega

theorem mkWord_kind : (mkWord k wc c z a).extractLsb' 28 4 = k := by
  apply BitVec.eq_of_toNat_eq
  have h0 := k.isLt
  have h1 := wc.isLt
  have h2 := c.isLt
  have h3 := z.isLt
  have h4 := a.isLt
  rw [BitVec.extractLsb'_toNat, mkWord_toNat, Nat.shiftRight_eq_div_pow]
  omega

theorem mkWord_wc : (mkWord k wc c z a).extractLsb' 26 2 = wc := by
  apply BitVec.eq_of_toNat_eq
  have h1 := wc.isLt
  have h2 := c.isLt
  have h3 := z.isLt
  have h4 := a.isLt
  rw [BitVec.extractLsb'_toNat, mkWord_toNat, Nat.shiftRight_eq_div_pow]
  omega

theorem mkWord_cls : (mkWord k wc c z a).extractLsb' 24 2 = c := by
  apply BitVec.eq_of_toNat_eq
  have h2 := c.isLt
  have h3 := z.isLt
  have h4 := a.isLt
  rw [BitVec.extractLsb'_toNat, mkWord_toNat, Nat.shiftRight_eq_div_pow]
  omega

theorem mkWord_z : (mkWord k wc c z a).extractLsb' 16 8 = z := by
  apply BitVec.eq_of_toNat_eq
  have h3 := z.isLt
  have h4 := a.isLt
  rw [BitVec.extractLsb'_toNat, mkWord_toNat, Nat.shiftRight_eq_div_pow]
  omega

theorem mkWord_arg : (mkWord k wc c z a).extractLsb' 0 16 = a := by
  apply BitVec.eq_of_toNat_eq
  have h4 := a.isLt
  rw [BitVec.extractLsb'_toNat, mkWord_toNat, Nat.shiftRight_eq_div_pow]
  omega

end fields

/-- A descriptor is its fields. -/
theorem word_eq_mkWord (w : BitVec 32) :
    w = mkWord (w.extractLsb' 28 4) (w.extractLsb' 26 2) (w.extractLsb' 24 2)
      (w.extractLsb' 16 8) (w.extractLsb' 0 16) := by
  apply BitVec.eq_of_toNat_eq
  have h := w.isLt
  rw [mkWord_toNat]
  simp only [BitVec.extractLsb'_toNat, Nat.shiftRight_eq_div_pow]
  omega

@[simp] theorem DevClass.ofBits_bits (c : DevClass) : DevClass.ofBits c.bits = c := by
  cases c <;> rfl

theorem DevClass.bits_ofBits (c : BitVec 2) : (DevClass.ofBits c).bits = c := by
  revert c; decide

theorem DevClass.ofBits_eq_iff (c : BitVec 2) (d : DevClass) :
    d = DevClass.ofBits c ↔ c = d.bits := by
  constructor
  · rintro rfl; exact (DevClass.bits_ofBits c).symm
  · rintro rfl; exact (DevClass.ofBits_bits d).symm

@[simp] theorem Width.ofBits_bits (n : Width) : Width.ofBits n.bits = some n := by cases n <;> rfl

theorem Width.bits_of_ofBits {wc : BitVec 2} {n : Width} (h : Width.ofBits wc = some n) :
    n.bits = wc := by
  revert wc n; decide

theorem Width.ofBits_eq_none {wc : BitVec 2} : Width.ofBits wc = none ↔ wc = 3#2 := by
  revert wc; decide

theorem AccessKind.bits_lt (k : AccessKind) : ¬ 8#4 ≤ k.bits := by cases k <;> decide

/-! ### The fields of a request laid out by `Request.bare` -/

section bare
variable (k : BitVec 4) (wc : BitVec 2) (dev : DevRef) (a : BitVec 16)

@[simp] theorem Request.bare_kind : (Request.bare k wc dev a).kindBits = k := mkWord_kind ..
@[simp] theorem Request.bare_wc : (Request.bare k wc dev a).wcBits = wc := mkWord_wc ..
@[simp] theorem Request.bare_cls : (Request.bare k wc dev a).clsBits = dev.cls.bits := mkWord_cls ..
@[simp] theorem Request.bare_z : (Request.bare k wc dev a).zBits = 0#8 := mkWord_z ..
@[simp] theorem Request.bare_arg : (Request.bare k wc dev a).argBits = a := mkWord_arg ..
@[simp] theorem Request.bare_dev : (Request.bare k wc dev a).dev = dev := rfl
@[simp] theorem Request.bare_word :
    (Request.bare k wc dev a).word = mkWord k wc dev.cls.bits 0#8 a := rfl

end bare

/-- The refusals of step 1 and of a wrong class do not concern a request whose fields are in order
(R58): what is left of decoding. -/
theorem decode_of_fields {r : Request} (hk : ¬ 8#4 ≤ r.kindBits) (hz : r.zBits = 0#8)
    (hc : r.clsBits = r.dev.cls.bits) :
    decode r =
      match r.kindBits.toNat with
      | 0 => .ok (decodeBus .read r)
      | 1 => .ok (decodeBus .write r)
      | _ => decodeControl r := by
  unfold decode
  rw [if_neg hk, if_neg (by simpa using hz), if_neg (by simp [hc])] <;> rfl

/-- The fields of a request that the decoder accepts (R58 step 1, R60). -/
theorem decode_ok_fields {r : Request} {i : Instr} (h : decode r = .ok i) :
    ¬ 8#4 ≤ r.kindBits ∧ r.zBits = 0#8 ∧ r.clsBits = r.dev.cls.bits := by
  unfold decode at h
  split at h
  · cases h
  split at h
  · cases h
  split at h
  · cases h
  rename_i h1 h2 h3
  exact ⟨h1, by simpa using h2, (DevClass.ofBits_eq_iff _ _).mp (by simpa using h3)⟩

/-- A bus request whose fields are in order decodes by steps 2 to 5 of R58. -/
theorem decode_bus {r : Request} {kind : AccessKind} (hk : r.kindBits = kind.bits)
    (hz : r.zBits = 0#8) (hc : r.clsBits = r.dev.cls.bits) : decode r = .ok (decodeBus kind r) := by
  rw [decode_of_fields (hk ▸ kind.bits_lt) hz hc, hk]
  cases kind <;> rfl

/-- A request of another kind whose fields are in order decodes by step 6 of R58. -/
theorem decode_control {r : Request} (h2 : 2 ≤ r.kindBits.toNat) (h8 : r.kindBits.toNat < 8)
    (hz : r.zBits = 0#8) (hc : r.clsBits = r.dev.cls.bits) : decode r = decodeControl r := by
  rw [decode_of_fields (by rw [BitVec.not_le, BitVec.lt_def]; exact h8) hz hc]
  split
  · omega
  · omega
  · rfl

/-- What the decoder accepts (R58): a bus request, or a request of another kind that step 6 accepts. -/
theorem decode_ok_cases {r : Request} {i : Instr} (h : decode r = .ok i) :
    r.zBits = 0#8 ∧ r.clsBits = r.dev.cls.bits ∧
    ((∃ kind : AccessKind, r.kindBits = kind.bits ∧ i = decodeBus kind r) ∨
     (2 ≤ r.kindBits.toNat ∧ r.kindBits.toNat < 8 ∧ r.wcBits = 0#2 ∧ decodeControl r = .ok i)) := by
  obtain ⟨hk, hz, hc⟩ := decode_ok_fields h
  refine ⟨hz, hc, ?_⟩
  have h8 : r.kindBits.toNat < 8 := by
    rwa [BitVec.not_le, BitVec.lt_def] at hk
  rw [decode_of_fields hk hz hc] at h
  split at h
  · rename_i h0
    exact .inl ⟨.read, BitVec.eq_of_toNat_eq h0, (Except.ok.inj h).symm⟩
  · rename_i h0
    exact .inl ⟨.write, BitVec.eq_of_toNat_eq h0, (Except.ok.inj h).symm⟩
  · rename_i h0 h1
    have h0 : r.kindBits.toNat ≠ 0 := h0
    have h1 : r.kindBits.toNat ≠ 1 := h1
    refine .inr ⟨by omega, h8, ?_, h⟩
    unfold decodeControl at h
    by_contra hw
    rw [if_neg hw] at h
    cases h

end Sys2Proof
end

