-- ==== Sys2Proof/Laws/Operands.lean ====
section
/-! SUPPORT. What the operand forms compute, bit by bit and as numbers (spec/00_scope.md R9,
spec/20_memory.md R44, R45). -/

namespace Sys2Proof.Machine

open Sys2Proof.Config

/-- A bus value has its width's size. -/
theorem busVal_zext_lt (v : BusVal) : v.zext.toNat < 2 ^ (8 * v.width.bytes) := by
  cases v <;> simp [BusVal.zext, BusVal.width, Width.bytes] <;> omega

/-- The low `8n` bits of a word, as a number (R44). -/
theorem busVal_ofWord_toNat (n : Width) (w : Word) :
    (BusVal.ofWord n w).zext.toNat = w.toNat % 2 ^ (8 * n.bytes) := by
  cases n <;> simp [BusVal.ofWord, BusVal.zext, Width.bytes] <;> omega

@[simp] theorem busVal_ofWord_width (n : Width) (w : Word) : (BusVal.ofWord n w).width = n := by
  cases n <;> rfl

/-- Reading back a zero-extended bus value gives it again. -/
@[simp] theorem busVal_ofWord_zext (v : BusVal) : BusVal.ofWord v.width v.zext = v := by
  cases v <;> simp [BusVal.ofWord, BusVal.zext, BusVal.width]

/-- The bits of `M(n)` (R45). -/
theorem lowMask_getLsbD (n : Width) (j : Nat) :
    (lowMask n).getLsbD j = decide (j < 8 * n.bytes) := by
  by_cases hj : j < 32
  · cases n <;> simp only [lowMask, Width.bytes] <;> interval_cases j <;> decide
  · have h : 8 * n.bytes ≤ 32 := by cases n <;> decide
    rw [BitVec.getLsbD_of_ge _ _ (by omega)]
    simp; omega

theorem lowMask_getElem (n : Width) (j : Nat) (h : j < 32) :
    (lowMask n)[j] = decide (j < 8 * n.bytes) := by
  rw [← BitVec.getLsbD_eq_getElem, lowMask_getLsbD]

/-- The bits of a bus value above its width are 0. -/
theorem busVal_zext_getLsbD (v : BusVal) (j : Nat) (h : 8 * v.width.bytes ≤ j) :
    v.zext.getLsbD j = false := by
  cases v <;> simp_all [BusVal.zext, BusVal.width, Width.bytes]

/-- `Eff`, bit by bit (R45): the value's own bits in its width, and above them the old bits under MERGE
and 0 under ZERO_EXTEND. -/
theorem eff_getLsbD (nw : NarrowWrite) (old : Word) (v : BusVal) (j : Nat) :
    (eff nw old v).getLsbD j =
      if j < 8 * v.width.bytes then v.zext.getLsbD j
      else (decide (nw = .merge) && old.getLsbD j) := by
  have hz := busVal_zext_getLsbD v j
  by_cases hj32 : j < 32
  · by_cases h : j < 8 * v.width.bytes
    · rw [if_pos h]
      cases v <;> cases nw <;> simp_all [eff, BusVal.width, lowMask_getLsbD]
    · rw [if_neg h]
      have hz := hz (by omega)
      cases v <;> cases nw <;> simp_all [eff, BusVal.width, lowMask_getElem]
      simp [Width.bytes] at h; omega
  · rw [BitVec.getLsbD_of_ge _ _ (by omega), BitVec.getLsbD_of_ge _ _ (by omega : 32 ≤ j),
      BitVec.getLsbD_of_ge _ _ (by omega : 32 ≤ j)]
    simp

/-- Clearing the low `8n` bits, as two shifts. -/
theorem and_not_lowMask (old : Word) (n : Width) :
    old &&& ~~~(lowMask n) = (old >>> (8 * n.bytes)) <<< (8 * n.bytes) := by
  apply BitVec.eq_of_getLsbD_eq
  intro j hj
  by_cases h : j < 8 * n.bytes
  · simp [lowMask_getElem, hj, h]
  · have : 8 * n.bytes + (j - 8 * n.bytes) = j := by omega
    simp [lowMask_getElem, hj, h, this]

/-- `Eff` as a number (R45). -/
theorem eff_toNat (nw : NarrowWrite) (old : Word) (v : BusVal) :
    (eff nw old v).toNat =
      match nw with
      | .zeroExtend => v.zext.toNat
      | .merge => old.toNat - old.toNat % 2 ^ (8 * v.width.bytes) + v.zext.toNat := by
  cases nw
  · cases v <;> rfl
  · have key : ∀ n : Width, ∀ w : Word, w.toNat < 2 ^ (8 * n.bytes) →
        ((old &&& ~~~(lowMask n)) ||| w).toNat =
          old.toNat - old.toNat % 2 ^ (8 * n.bytes) + w.toNat := by
      intro n w hw
      rw [and_not_lowMask, BitVec.toNat_or, BitVec.toNat_shiftLeft, BitVec.toNat_ushiftRight]
      have hlt : old.toNat >>> (8 * n.bytes) <<< (8 * n.bytes) < 2 ^ 32 := by
        rw [Nat.shiftLeft_eq, Nat.shiftRight_eq_div_pow]
        exact lt_of_le_of_lt (Nat.div_mul_le_self _ _) old.isLt
      rw [Nat.mod_eq_of_lt hlt, ← Nat.shiftLeft_add_eq_or_of_lt hw, Nat.shiftLeft_eq,
        Nat.shiftRight_eq_div_pow]
      have := Nat.div_add_mod' old.toNat (2 ^ (8 * n.bytes))
      omega
    have hv := busVal_zext_lt v
    cases v
    · exact key .w1 _ hv
    · exact key .w2 _ hv
    · have := old.isLt
      simp only [eff, BusVal.width, Width.bytes]
      omega

/-- Writing twice is writing once. -/
@[simp] theorem eff_eff (nw : NarrowWrite) (old : Word) (v : BusVal) :
    eff nw (eff nw old v) v = eff nw old v := by
  apply BitVec.eq_of_getLsbD_eq
  intro j _
  simp only [eff_getLsbD]
  split <;> simp

/-- `r[i] <- b`, bit by bit. -/
theorem setBit_getLsbD (r : Word) (i : Fin 16) (b : Bool) (j : Nat) :
    (setBit r i b).getLsbD j = if j = i.val then b else r.getLsbD j := by
  have hone : ∀ j, (1#32 <<< i.val).getLsbD j = decide (j = i.val) := by
    intro j
    have := i.isLt
    by_cases h : j = i.val
    · simp [h]; omega
    · simp [h]; intros; omega
  by_cases hb : b = true
  · simp only [setBit, hb, if_true, BitVec.getLsbD_or, hone]
    by_cases h : j = i.val <;> simp [h]
  · simp only [setBit, hb, Bool.false_eq_true, if_false, BitVec.getLsbD_and, BitVec.getLsbD_not,
      hone]
    by_cases h : j = i.val
    · simp [h]
    · simp only [h, decide_false, Bool.not_false, Bool.and_true, if_false]
      by_cases hj : j < 32
      · simp [hj]
      · rw [BitVec.getLsbD_of_ge _ _ (by omega)]; simp

/-- A 2-bit field is 0 iff both its bits are. -/
theorem f2_eq_zero_iff (r : Word) (i : Fin 16) :
    f2 r i = 0#2 ↔ r.getLsbD (2 * i.val) = false ∧ r.getLsbD (2 * i.val + 1) = false := by
  constructor
  · intro h
    have h0 := congrArg (fun x => BitVec.getLsbD x 0) h
    have h1 := congrArg (fun x => BitVec.getLsbD x 1) h
    simpa [f2] using And.intro h0 h1
  · rintro ⟨h0, h1⟩
    apply BitVec.eq_of_getLsbD_eq
    intro j hj
    have : j = 0 ∨ j = 1 := by omega
    rcases this with rfl | rfl <;> simpa [f2]

/-- ODR after a BSRR write, bit by bit (R85): a pin ends at 0 if its reset bit is set, else at 1 if its
set bit is set, else as it was; bits 31:16 are unchanged. -/
theorem bsrrOdr_getLsbD (odr v : Word) (j : Nat) :
    ((odr ||| bsrrSet v) &&& ~~~(bsrrReset v)).getLsbD j =
      if j < 16 then (!v.getLsbD (16 + j) && (odr.getLsbD j || v.getLsbD j))
      else odr.getLsbD j := by
  have hm : ∀ j, (0xFFFF#32).getLsbD j = decide (j < 16) := fun j => lowMask_getLsbD .w2 j
  by_cases hj : j < 32
  · simp only [bsrrSet, bsrrReset, BitVec.getLsbD_and, BitVec.getLsbD_or, BitVec.getLsbD_not,
      BitVec.getLsbD_ushiftRight, hm, hj, decide_true, Bool.true_and]
    by_cases h : j < 16
    · simp [h, Bool.and_comm]
    · have : v.getLsbD (16 + j) = false := BitVec.getLsbD_of_ge _ _ (by omega)
      simp [h, this]
  · rw [BitVec.getLsbD_of_ge _ _ (by omega), BitVec.getLsbD_of_ge _ _ (by omega : 32 ≤ j)]
    simp; omega

end Sys2Proof.Machine
end

