-- ==== Sys2Proof/Laws/State.lean ====
section
/-! SUPPORT. One lemma per field per update of State, all true by rfl, so that no later proof unfolds a
record update. -/

namespace Sys2Proof.Machine

variable (s : State)

section answer
variable (r : Reply)

@[simp] theorem State.answer_cfg : (s.answer r).cfg = s.cfg := rfl
@[simp] theorem State.answer_gpios : (s.answer r).gpios = s.gpios := rfl
@[simp] theorem State.answer_csrs : (s.answer r).csrs = s.csrs := rfl
@[simp] theorem State.answer_buttons : (s.answer r).buttons = s.buttons := rfl
@[simp] theorem State.answer_leds : (s.answer r).leds = s.leds := rfl
@[simp] theorem State.answer_faults : (s.answer r).faults = s.faults := rfl
@[simp] theorem State.answer_pending : (s.answer r).pending = s.pending := rfl
@[simp] theorem State.answer_reply : (s.answer r).reply = r := rfl
@[simp] theorem State.answer_halted : (s.answer r).halted = s.halted := rfl

end answer

section modifyGpio
variable (k : Nat) (f : Gpio → Gpio)

@[simp] theorem State.modifyGpio_cfg : (s.modifyGpio k f).cfg = s.cfg := rfl
@[simp] theorem State.modifyGpio_gpios : (s.modifyGpio k f).gpios = s.gpios.modify k f := rfl
@[simp] theorem State.modifyGpio_csrs : (s.modifyGpio k f).csrs = s.csrs := rfl
@[simp] theorem State.modifyGpio_buttons : (s.modifyGpio k f).buttons = s.buttons := rfl
@[simp] theorem State.modifyGpio_leds : (s.modifyGpio k f).leds = s.leds := rfl
@[simp] theorem State.modifyGpio_faults : (s.modifyGpio k f).faults = s.faults := rfl
@[simp] theorem State.modifyGpio_pending : (s.modifyGpio k f).pending = s.pending := rfl
@[simp] theorem State.modifyGpio_reply : (s.modifyGpio k f).reply = s.reply := rfl
@[simp] theorem State.modifyGpio_halted : (s.modifyGpio k f).halted = s.halted := rfl

end modifyGpio

section modifyCsr
variable (k : Nat) (f : CsrBank → CsrBank)

@[simp] theorem State.modifyCsr_cfg : (s.modifyCsr k f).cfg = s.cfg := rfl
@[simp] theorem State.modifyCsr_gpios : (s.modifyCsr k f).gpios = s.gpios := rfl
@[simp] theorem State.modifyCsr_csrs : (s.modifyCsr k f).csrs = s.csrs.modify k f := rfl
@[simp] theorem State.modifyCsr_buttons : (s.modifyCsr k f).buttons = s.buttons := rfl
@[simp] theorem State.modifyCsr_leds : (s.modifyCsr k f).leds = s.leds := rfl
@[simp] theorem State.modifyCsr_faults : (s.modifyCsr k f).faults = s.faults := rfl
@[simp] theorem State.modifyCsr_pending : (s.modifyCsr k f).pending = s.pending := rfl
@[simp] theorem State.modifyCsr_reply : (s.modifyCsr k f).reply = s.reply := rfl
@[simp] theorem State.modifyCsr_halted : (s.modifyCsr k f).halted = s.halted := rfl

end modifyCsr

section modifyButton
variable (k : Nat) (f : Button → Button)

@[simp] theorem State.modifyButton_cfg : (s.modifyButton k f).cfg = s.cfg := rfl
@[simp] theorem State.modifyButton_gpios : (s.modifyButton k f).gpios = s.gpios := rfl
@[simp] theorem State.modifyButton_csrs : (s.modifyButton k f).csrs = s.csrs := rfl
@[simp] theorem State.modifyButton_buttons : (s.modifyButton k f).buttons = s.buttons.modify k f := rfl
@[simp] theorem State.modifyButton_leds : (s.modifyButton k f).leds = s.leds := rfl
@[simp] theorem State.modifyButton_faults : (s.modifyButton k f).faults = s.faults := rfl
@[simp] theorem State.modifyButton_pending : (s.modifyButton k f).pending = s.pending := rfl
@[simp] theorem State.modifyButton_reply : (s.modifyButton k f).reply = s.reply := rfl
@[simp] theorem State.modifyButton_halted : (s.modifyButton k f).halted = s.halted := rfl

end modifyButton

section modifyLed
variable (k : Nat) (f : Led → Led)

@[simp] theorem State.modifyLed_cfg : (s.modifyLed k f).cfg = s.cfg := rfl
@[simp] theorem State.modifyLed_gpios : (s.modifyLed k f).gpios = s.gpios := rfl
@[simp] theorem State.modifyLed_csrs : (s.modifyLed k f).csrs = s.csrs := rfl
@[simp] theorem State.modifyLed_buttons : (s.modifyLed k f).buttons = s.buttons := rfl
@[simp] theorem State.modifyLed_leds : (s.modifyLed k f).leds = s.leds.modify k f := rfl
@[simp] theorem State.modifyLed_faults : (s.modifyLed k f).faults = s.faults := rfl
@[simp] theorem State.modifyLed_pending : (s.modifyLed k f).pending = s.pending := rfl
@[simp] theorem State.modifyLed_reply : (s.modifyLed k f).reply = s.reply := rfl
@[simp] theorem State.modifyLed_halted : (s.modifyLed k f).halted = s.halted := rfl

end modifyLed

section raiseInvalidOffset
variable (dev : DevRef) (off : BitVec 16) (kind : AccessKind)

@[simp] theorem State.raiseInvalidOffset_cfg : (s.raiseInvalidOffset dev off kind).cfg = s.cfg := rfl
@[simp] theorem State.raiseInvalidOffset_gpios : (s.raiseInvalidOffset dev off kind).gpios = s.gpios := rfl
@[simp] theorem State.raiseInvalidOffset_csrs : (s.raiseInvalidOffset dev off kind).csrs = s.csrs := rfl
@[simp] theorem State.raiseInvalidOffset_buttons : (s.raiseInvalidOffset dev off kind).buttons = s.buttons := rfl
@[simp] theorem State.raiseInvalidOffset_leds : (s.raiseInvalidOffset dev off kind).leds = s.leds := rfl
@[simp] theorem State.raiseInvalidOffset_faults : (s.raiseInvalidOffset dev off kind).faults = s.faults ++ [⟨dev, off, kind⟩] := rfl
@[simp] theorem State.raiseInvalidOffset_pending : (s.raiseInvalidOffset dev off kind).pending = s.pending := rfl
@[simp] theorem State.raiseInvalidOffset_reply : (s.raiseInvalidOffset dev off kind).reply = .fault ⟨dev, off, kind⟩ := rfl
@[simp] theorem State.raiseInvalidOffset_halted : (s.raiseInvalidOffset dev off kind).halted = (s.halted || s.cfg.haltOnInvalid) := rfl

end raiseInvalidOffset

section present
variable (r : Request)

@[simp] theorem State.present_cfg : (s.present r).cfg = s.cfg := rfl
@[simp] theorem State.present_gpios : (s.present r).gpios = s.gpios := rfl
@[simp] theorem State.present_csrs : (s.present r).csrs = s.csrs := rfl
@[simp] theorem State.present_buttons : (s.present r).buttons = s.buttons := rfl
@[simp] theorem State.present_leds : (s.present r).leds = s.leds := rfl
@[simp] theorem State.present_faults : (s.present r).faults = s.faults := rfl
@[simp] theorem State.present_pending : (s.present r).pending = r :: s.pending := rfl
@[simp] theorem State.present_reply : (s.present r).reply = s.reply := rfl
@[simp] theorem State.present_halted : (s.present r).halted = false := rfl

end present

section wires
variable (k : Nat) (p : Fin 64) (w : Wire)

theorem State.setGpioWire_eq :
    s.setGpioWire k p w = s.modifyGpio k fun g => { g with out := g.out.set p.val (some w) } := rfl

theorem State.setButtonWire_eq :
    s.setButtonWire k w = s.modifyButton k fun b => { b with out := some w } := rfl

end wires

end Sys2Proof.Machine
end

