-- ==== Sys2Proof/Laws/Devices.lean ====
section
/-! SUPPORT. Looking a device up and changing one: what a request to an existing device does, and that
changing device `k` of a list is setting its entry. -/

namespace Sys2Proof.Machine

/-- Changing an existing entry of a list is setting it. -/
theorem modify_eq_set {α : Type} (l : List α) (k : Nat) (f : α → α) (a : α) (h : l[k]? = some a) :
    l.modify k f = l.set k (f a) := by
  apply List.ext_getElem?
  intro n
  obtain ⟨hk, ha⟩ := List.getElem?_eq_some_iff.mp h
  rw [List.getElem?_modify, List.getElem?_set]
  by_cases hn : k = n
  · subst hn; simp [hk, ha]
  · simp [hn]

theorem State.onGpio_of_some {s : State} {k : Nat} {g : Gpio} (h : s.gpios[k]? = some g)
    (f : Gpio → Result) : s.onGpio k f = f g := by simp only [State.onGpio, h]

theorem State.onCsr_of_some {s : State} {k : Nat} {b : CsrBank} (h : s.csrs[k]? = some b)
    (f : CsrBank → Result) : s.onCsr k f = f b := by simp only [State.onCsr, h]

theorem State.onButton_of_some {s : State} {k : Nat} {u : Button} (h : s.buttons[k]? = some u)
    (f : Button → Result) : s.onButton k f = f u := by simp only [State.onButton, h]

theorem State.onLed_of_some {s : State} {k : Nat} {l : Led} (h : s.leds[k]? = some l)
    (f : Led → Result) : s.onLed k f = f l := by simp only [State.onLed, h]

/-- What a request to a GPIO controller can answer: the controller exists and `f` answers, or it does not
and the request is refused. -/
theorem State.onGpio_cases (s : State) (k : Nat) (f : Gpio → Result) :
    (∃ g, s.gpios[k]? = some g ∧ s.onGpio k f = f g) ∨
    (s.gpios[k]? = none ∧ s.onGpio k f = .refused (.noSuchDevice ⟨.gpio, k⟩)) := by
  cases h : s.gpios[k]? with
  | some g => exact .inl ⟨g, rfl, s.onGpio_of_some h f⟩
  | none => exact .inr ⟨rfl, by simp only [State.onGpio, h]⟩

theorem State.onCsr_cases (s : State) (k : Nat) (f : CsrBank → Result) :
    (∃ b, s.csrs[k]? = some b ∧ s.onCsr k f = f b) ∨
    (s.csrs[k]? = none ∧ s.onCsr k f = .refused (.noSuchDevice ⟨.csr, k⟩)) := by
  cases h : s.csrs[k]? with
  | some b => exact .inl ⟨b, rfl, s.onCsr_of_some h f⟩
  | none => exact .inr ⟨rfl, by simp only [State.onCsr, h]⟩

theorem State.onButton_cases (s : State) (k : Nat) (f : Button → Result) :
    (∃ u, s.buttons[k]? = some u ∧ s.onButton k f = f u) ∨
    (s.buttons[k]? = none ∧ s.onButton k f = .refused (.noSuchDevice ⟨.button, k⟩)) := by
  cases h : s.buttons[k]? with
  | some u => exact .inl ⟨u, rfl, s.onButton_of_some h f⟩
  | none => exact .inr ⟨rfl, by simp only [State.onButton, h]⟩

theorem State.onLed_cases (s : State) (k : Nat) (f : Led → Result) :
    (∃ l, s.leds[k]? = some l ∧ s.onLed k f = f l) ∨
    (s.leds[k]? = none ∧ s.onLed k f = .refused (.noSuchDevice ⟨.led, k⟩)) := by
  cases h : s.leds[k]? with
  | some l => exact .inl ⟨l, rfl, s.onLed_of_some h f⟩
  | none => exact .inr ⟨rfl, by simp only [State.onLed, h]⟩

/-- Changing an existing GPIO controller sets its entry and nothing else. -/
theorem State.modifyGpio_of_some {s : State} {k : Nat} {g : Gpio} (h : s.gpios[k]? = some g)
    (f : Gpio → Gpio) : s.modifyGpio k f = { s with gpios := s.gpios.set k (f g) } := by
  rw [State.modifyGpio, modify_eq_set _ _ _ _ h]

theorem State.modifyCsr_of_some {s : State} {k : Nat} {b : CsrBank} (h : s.csrs[k]? = some b)
    (f : CsrBank → CsrBank) : s.modifyCsr k f = { s with csrs := s.csrs.set k (f b) } := by
  rw [State.modifyCsr, modify_eq_set _ _ _ _ h]

theorem State.modifyButton_of_some {s : State} {k : Nat} {u : Button} (h : s.buttons[k]? = some u)
    (f : Button → Button) : s.modifyButton k f = { s with buttons := s.buttons.set k (f u) } := by
  rw [State.modifyButton, modify_eq_set _ _ _ _ h]

theorem State.modifyLed_of_some {s : State} {k : Nat} {l : Led} (h : s.leds[k]? = some l)
    (f : Led → Led) : s.modifyLed k f = { s with leds := s.leds.set k (f l) } := by
  rw [State.modifyLed, modify_eq_set _ _ _ _ h]

/-- What a register read answers (R44). -/
theorem readGpio_of_some {s : State} {k : Nat} {g : Gpio} (h : s.gpios[k]? = some g) (r : GpioReg)
    (n : Width) :
    readGpio r k n s = .next (s.answer (.value (BusVal.ofWord n (g.readReg r)))) :=
  s.onGpio_of_some h _

theorem readCsr_of_some {s : State} {k : Nat} {b : CsrBank} (h : s.csrs[k]? = some b) (m : Fin 14)
    (n : Width) : readCsr m k n s = .next (s.answer (.value (BusVal.ofWord n b.regs[m]))) :=
  s.onCsr_of_some h _

/-- What a plain register write does (R45). -/
theorem writeGpio_of_some {s : State} {k : Nat} {g : Gpio} (h : s.gpios[k]? = some g)
    (f : Gpio → Gpio) :
    writeGpio k s f = .next { s with gpios := s.gpios.set k (f g), reply := .done } := by
  rw [writeGpio, State.onGpio_of_some h, State.modifyGpio_of_some h]; rfl

theorem writeCsr_of_some {s : State} {k : Nat} {b : CsrBank} (h : s.csrs[k]? = some b) (m : Fin 14)
    (v : BusVal) :
    writeCsr m k v s =
      .next { s with
        csrs := s.csrs.set k
          { b with regs := b.regs.set m.val (eff s.cfg.narrowWrite b.regs[m] v) }
        reply := .done } := by
  rw [writeCsr, State.onCsr_of_some h, State.modifyCsr_of_some h]; rfl

/-- What an access that is not valid does (R116). -/
theorem invalidAccess_cases (kind : AccessKind) (dev : DevRef) (off : BitVec 16) (s : State) :
    (s.hasDevice dev = true ∧
      invalidAccess kind dev off s = .next (s.raiseInvalidOffset dev off kind)) ∨
    (s.hasDevice dev = false ∧ invalidAccess kind dev off s = .refused (.noSuchDevice dev)) := by
  unfold invalidAccess
  cases h : s.hasDevice dev <;> simp

/-! ### The byte view of a register space (R43) -/

/-- The word at `4j` of a GPIO controller is register `j` as a read gives it (R38). -/
theorem State.readWord_gpio {s : State} {k : Nat} {g : Gpio} (h : s.gpios[k]? = some g) {j : Nat}
    {r : GpioReg} (hr : gpioRegs[j]? = some r) : s.readWord ⟨.gpio, k⟩ j = some (g.readReg r) := by
  simp only [State.readWord, h, hr]

/-- The word at `4m` of a CSR bank is `R[m]` (R39). -/
theorem State.readWord_csr {s : State} {k : Nat} {b : CsrBank} (h : s.csrs[k]? = some b) (m : Fin 14) :
    s.readWord ⟨.csr, k⟩ m.val = some b.regs[m] := by
  simp [State.readWord, h]

/-- Byte lane `j` of the word at `4i` (R43). -/
theorem State.readByte_of_word {s : State} {d : DevRef} {i : Nat} {w : Word}
    (h : s.readWord d i = some w) {j : Nat} (hj : j < 4) :
    s.readByte d (4 * i + j) = some (w.extractLsb' (8 * j) 8) := by
  have h1 : (4 * i + j) / 4 = i := by omega
  have h2 : (4 * i + j) % 4 = j := by omega
  rw [State.readByte, h1, h2, h, Option.map_some]

/-- Byte lane `j` below the width of a read is byte `j` of the value read (R43, R44). -/
theorem extractLsb'_eq_byte_of_busVal (n : Width) (w : Word) {j : Nat} (hj : j < n.bytes) :
    (w.extractLsb' (8 * j) 8).toNat = (BusVal.ofWord n w).zext.toNat / 256 ^ j % 256 := by
  have e : 256 ^ j = 2 ^ (8 * j) := by rw [Nat.pow_mul]
  rw [busVal_ofWord_toNat, e, BitVec.extractLsb'_toNat, Nat.shiftRight_eq_div_pow]
  have hn : 2 ^ (8 * n.bytes) = 2 ^ (8 * j) * 2 ^ (8 * (n.bytes - j)) := by
    rw [← Nat.pow_add]; congr 1; omega
  rw [hn, Nat.mod_mul_right_div_self]
  exact (Nat.mod_mod_of_dvd _ (pow_dvd_pow 2 (show 8 ≤ 8 * (n.bytes - j) by omega))).symm

/-! ### Which devices exist -/

/-- A device of a class exists iff its number is in the class's list. -/
theorem State.hasDevice_gpio (s : State) (k : Nat) :
    s.hasDevice ⟨.gpio, k⟩ = true ↔ ∃ g, s.gpios[k]? = some g := by
  simp [State.hasDevice, ← Option.isSome_iff_exists]

theorem State.hasDevice_csr (s : State) (k : Nat) :
    s.hasDevice ⟨.csr, k⟩ = true ↔ ∃ b, s.csrs[k]? = some b := by
  simp [State.hasDevice, ← Option.isSome_iff_exists]

theorem State.hasDevice_button (s : State) (k : Nat) :
    s.hasDevice ⟨.button, k⟩ = true ↔ ∃ u, s.buttons[k]? = some u := by
  simp [State.hasDevice, ← Option.isSome_iff_exists]

theorem State.hasDevice_led (s : State) (k : Nat) :
    s.hasDevice ⟨.led, k⟩ = true ↔ ∃ l, s.leds[k]? = some l := by
  simp [State.hasDevice, ← Option.isSome_iff_exists]

end Sys2Proof.Machine
end

