-- ==== Sys2Proof/Laws/PerInstr.lean ====
section
/-! SUPPORT. Per instruction: the encoded descriptor word of a well-formed instruction matches the
instruction's row of spec/opcode_table.json (spec/30_encoding.md R59). -/

namespace Sys2Proof.Laws.EncodesItsRow

/-- The word of a well-formed instruction matches its row. -/
def Statement (i : Sys2Proof.Instr) : Prop :=
  i.wellFormed = true → i.row.matches (encode i).word = true

/-- Masking a descriptor masks its fields. -/
theorem mkWord_and (k k' : BitVec 4) (wc wc' c c' : BitVec 2) (z z' : BitVec 8) (a a' : BitVec 16) :
    mkWord k wc c z a &&& mkWord k' wc' c' z' a' =
      mkWord (k &&& k') (wc &&& wc') (c &&& c') (z &&& z') (a &&& a') := by
  have h : (k ++ wc ++ c ++ z ++ a) &&& (k' ++ wc' ++ c' ++ z' ++ a') =
      (k &&& k') ++ (wc &&& wc') ++ (c &&& c') ++ (z &&& z') ++ (a &&& a') := by
    simp only [BitVec.and_append]
  exact h

/-- A register row's mask leaves the width code free (R59). -/
theorem busWord_matches (k : BitVec 4) (wc c : BitVec 2) (a : BitVec 16) {w : BitVec 32}
    (h : mkWord k 0#2 c 0#8 a = w) : (⟨w, 0xF3FFFFFF#32⟩ : OpRow).matches (mkWord k wc c 0#8 a) = true := by
  have hm : 0xF3FFFFFF#32 = mkWord 0xF#4 0#2 3#2 0xFF#8 0xFFFF#16 := by decide
  have hk : k &&& 0xF#4 = k := BitVec.and_allOnes
  have hc : c &&& 3#2 = c := BitVec.and_allOnes
  have ha : a &&& 0xFFFF#16 = a := BitVec.and_allOnes
  simp only [OpRow.matches, hm, mkWord_and, hk, hc, ha, BitVec.and_zero, BitVec.zero_and, h,
    beq_self_eq_true]

/-- The mask of BUS.BADWIDTH (R59), field by field. -/
theorem badwidth_mask : 0xECFF0000#32 = mkWord 0xE#4 3#2 0#2 0xFF#8 0#16 := by decide

/-- The mask of BUS.INVALID_OFFSET (R59), field by field. -/
theorem invalid_mask : 0xE0FF0000#32 = mkWord 0xE#4 0#2 0#2 0xFF#8 0#16 := by decide

theorem gpioRdMode (k : Nat) (n : Width) : Statement (.gpioRdMode k n) := fun _ =>
  busWord_matches 0#4 n.bits 0#2 0x00#16 (by decide)

theorem gpioWrMode (k : Nat) (v : BusVal) : Statement (.gpioWrMode k v) := fun _ =>
  busWord_matches 1#4 v.width.bits 0#2 0x00#16 (by decide)

theorem gpioRdOtype (k : Nat) (n : Width) : Statement (.gpioRdOtype k n) := fun _ =>
  busWord_matches 0#4 n.bits 0#2 0x04#16 (by decide)

theorem gpioWrOtype (k : Nat) (v : BusVal) : Statement (.gpioWrOtype k v) := fun _ =>
  busWord_matches 1#4 v.width.bits 0#2 0x04#16 (by decide)

theorem gpioRdOspeed (k : Nat) (n : Width) : Statement (.gpioRdOspeed k n) := fun _ =>
  busWord_matches 0#4 n.bits 0#2 0x08#16 (by decide)

theorem gpioWrOspeed (k : Nat) (v : BusVal) : Statement (.gpioWrOspeed k v) := fun _ =>
  busWord_matches 1#4 v.width.bits 0#2 0x08#16 (by decide)

theorem gpioRdPupd (k : Nat) (n : Width) : Statement (.gpioRdPupd k n) := fun _ =>
  busWord_matches 0#4 n.bits 0#2 0x0C#16 (by decide)

theorem gpioWrPupd (k : Nat) (v : BusVal) : Statement (.gpioWrPupd k v) := fun _ =>
  busWord_matches 1#4 v.width.bits 0#2 0x0C#16 (by decide)

theorem gpioRdIdr (k : Nat) (n : Width) : Statement (.gpioRdIdr k n) := fun _ =>
  busWord_matches 0#4 n.bits 0#2 0x10#16 (by decide)

theorem gpioWrIdr (k : Nat) (v : BusVal) : Statement (.gpioWrIdr k v) := fun _ =>
  busWord_matches 1#4 v.width.bits 0#2 0x10#16 (by decide)

theorem gpioRdOdr (k : Nat) (n : Width) : Statement (.gpioRdOdr k n) := fun _ =>
  busWord_matches 0#4 n.bits 0#2 0x14#16 (by decide)

theorem gpioWrOdr (k : Nat) (v : BusVal) : Statement (.gpioWrOdr k v) := fun _ =>
  busWord_matches 1#4 v.width.bits 0#2 0x14#16 (by decide)

theorem gpioRdBsrr (k : Nat) (n : Width) : Statement (.gpioRdBsrr k n) := fun _ =>
  busWord_matches 0#4 n.bits 0#2 0x18#16 (by decide)

theorem gpioWrBsrr (k : Nat) (v : BusVal) : Statement (.gpioWrBsrr k v) := fun _ =>
  busWord_matches 1#4 v.width.bits 0#2 0x18#16 (by decide)

theorem gpioRdLck (k : Nat) (n : Width) : Statement (.gpioRdLck k n) := fun _ =>
  busWord_matches 0#4 n.bits 0#2 0x1C#16 (by decide)

theorem gpioWrLck (k : Nat) (v : BusVal) : Statement (.gpioWrLck k v) := fun _ =>
  busWord_matches 1#4 v.width.bits 0#2 0x1C#16 (by decide)

theorem gpioRdAfrl (k : Nat) (n : Width) : Statement (.gpioRdAfrl k n) := fun _ =>
  busWord_matches 0#4 n.bits 0#2 0x20#16 (by decide)

theorem gpioWrAfrl (k : Nat) (v : BusVal) : Statement (.gpioWrAfrl k v) := fun _ =>
  busWord_matches 1#4 v.width.bits 0#2 0x20#16 (by decide)

theorem gpioRdAfrh (k : Nat) (n : Width) : Statement (.gpioRdAfrh k n) := fun _ =>
  busWord_matches 0#4 n.bits 0#2 0x24#16 (by decide)

theorem gpioWrAfrh (k : Nat) (v : BusVal) : Statement (.gpioWrAfrh k v) := fun _ =>
  busWord_matches 1#4 v.width.bits 0#2 0x24#16 (by decide)

theorem csrRdReg0 (k : Nat) (n : Width) : Statement (.csrRdReg0 k n) := fun _ =>
  busWord_matches 0#4 n.bits 1#2 0x00#16 (by decide)

theorem csrWrReg0 (k : Nat) (v : BusVal) : Statement (.csrWrReg0 k v) := fun _ =>
  busWord_matches 1#4 v.width.bits 1#2 0x00#16 (by decide)

theorem csrRdReg1 (k : Nat) (n : Width) : Statement (.csrRdReg1 k n) := fun _ =>
  busWord_matches 0#4 n.bits 1#2 0x04#16 (by decide)

theorem csrWrReg1 (k : Nat) (v : BusVal) : Statement (.csrWrReg1 k v) := fun _ =>
  busWord_matches 1#4 v.width.bits 1#2 0x04#16 (by decide)

theorem csrRdReg2 (k : Nat) (n : Width) : Statement (.csrRdReg2 k n) := fun _ =>
  busWord_matches 0#4 n.bits 1#2 0x08#16 (by decide)

theorem csrWrReg2 (k : Nat) (v : BusVal) : Statement (.csrWrReg2 k v) := fun _ =>
  busWord_matches 1#4 v.width.bits 1#2 0x08#16 (by decide)

theorem csrRdReg3 (k : Nat) (n : Width) : Statement (.csrRdReg3 k n) := fun _ =>
  busWord_matches 0#4 n.bits 1#2 0x0C#16 (by decide)

theorem csrWrReg3 (k : Nat) (v : BusVal) : Statement (.csrWrReg3 k v) := fun _ =>
  busWord_matches 1#4 v.width.bits 1#2 0x0C#16 (by decide)

theorem csrRdReg4 (k : Nat) (n : Width) : Statement (.csrRdReg4 k n) := fun _ =>
  busWord_matches 0#4 n.bits 1#2 0x10#16 (by decide)

theorem csrWrReg4 (k : Nat) (v : BusVal) : Statement (.csrWrReg4 k v) := fun _ =>
  busWord_matches 1#4 v.width.bits 1#2 0x10#16 (by decide)

theorem csrRdReg5 (k : Nat) (n : Width) : Statement (.csrRdReg5 k n) := fun _ =>
  busWord_matches 0#4 n.bits 1#2 0x14#16 (by decide)

theorem csrWrReg5 (k : Nat) (v : BusVal) : Statement (.csrWrReg5 k v) := fun _ =>
  busWord_matches 1#4 v.width.bits 1#2 0x14#16 (by decide)

theorem csrRdReg6 (k : Nat) (n : Width) : Statement (.csrRdReg6 k n) := fun _ =>
  busWord_matches 0#4 n.bits 1#2 0x18#16 (by decide)

theorem csrWrReg6 (k : Nat) (v : BusVal) : Statement (.csrWrReg6 k v) := fun _ =>
  busWord_matches 1#4 v.width.bits 1#2 0x18#16 (by decide)

theorem csrRdReg7 (k : Nat) (n : Width) : Statement (.csrRdReg7 k n) := fun _ =>
  busWord_matches 0#4 n.bits 1#2 0x1C#16 (by decide)

theorem csrWrReg7 (k : Nat) (v : BusVal) : Statement (.csrWrReg7 k v) := fun _ =>
  busWord_matches 1#4 v.width.bits 1#2 0x1C#16 (by decide)

theorem csrRdReg8 (k : Nat) (n : Width) : Statement (.csrRdReg8 k n) := fun _ =>
  busWord_matches 0#4 n.bits 1#2 0x20#16 (by decide)

theorem csrWrReg8 (k : Nat) (v : BusVal) : Statement (.csrWrReg8 k v) := fun _ =>
  busWord_matches 1#4 v.width.bits 1#2 0x20#16 (by decide)

theorem csrRdReg9 (k : Nat) (n : Width) : Statement (.csrRdReg9 k n) := fun _ =>
  busWord_matches 0#4 n.bits 1#2 0x24#16 (by decide)

theorem csrWrReg9 (k : Nat) (v : BusVal) : Statement (.csrWrReg9 k v) := fun _ =>
  busWord_matches 1#4 v.width.bits 1#2 0x24#16 (by decide)

theorem csrRdReg10 (k : Nat) (n : Width) : Statement (.csrRdReg10 k n) := fun _ =>
  busWord_matches 0#4 n.bits 1#2 0x28#16 (by decide)

theorem csrWrReg10 (k : Nat) (v : BusVal) : Statement (.csrWrReg10 k v) := fun _ =>
  busWord_matches 1#4 v.width.bits 1#2 0x28#16 (by decide)

theorem csrRdReg11 (k : Nat) (n : Width) : Statement (.csrRdReg11 k n) := fun _ =>
  busWord_matches 0#4 n.bits 1#2 0x2C#16 (by decide)

theorem csrWrReg11 (k : Nat) (v : BusVal) : Statement (.csrWrReg11 k v) := fun _ =>
  busWord_matches 1#4 v.width.bits 1#2 0x2C#16 (by decide)

theorem csrRdReg12 (k : Nat) (n : Width) : Statement (.csrRdReg12 k n) := fun _ =>
  busWord_matches 0#4 n.bits 1#2 0x30#16 (by decide)

theorem csrWrReg12 (k : Nat) (v : BusVal) : Statement (.csrWrReg12 k v) := fun _ =>
  busWord_matches 1#4 v.width.bits 1#2 0x30#16 (by decide)

theorem csrRdReg13 (k : Nat) (n : Width) : Statement (.csrRdReg13 k n) := fun _ =>
  busWord_matches 0#4 n.bits 1#2 0x34#16 (by decide)

theorem csrWrReg13 (k : Nat) (v : BusVal) : Statement (.csrWrReg13 k v) := fun _ =>
  busWord_matches 1#4 v.width.bits 1#2 0x34#16 (by decide)

theorem busBadwidth (kind : AccessKind) (dev : DevRef) (off : BitVec 16) : Statement (.busBadwidth kind dev off) := by
  intro _
  show (mkWord kind.bits 3#2 dev.cls.bits 0#8 off &&& 0xECFF0000#32 == 0x0C000000#32) = true
  rw [badwidth_mask, mkWord_and]
  cases kind <;> simp only [BitVec.and_zero] <;> decide

theorem busInvalidOffset (kind : AccessKind) (wc : BitVec 2) (dev : DevRef) (off : BitVec 16) : Statement (.busInvalidOffset kind wc dev off) := by
  intro _
  show (mkWord kind.bits wc dev.cls.bits 0#8 off &&& 0xE0FF0000#32 == 0x00000000#32) = true
  rw [invalid_mask, mkWord_and]
  cases kind <;> simp only [BitVec.and_zero] <;> decide

theorem resetGpio (k : Nat) : Statement (.resetGpio k) := by
  intro _
  show (mkWord 2#4 0#2 0#2 0#8 0#16 &&& 0xFFFFFFFF#32 == 0x20000000#32) = true
  decide

theorem resetCsr (k : Nat) : Statement (.resetCsr k) := by
  intro _
  show (mkWord 2#4 0#2 1#2 0#8 0#16 &&& 0xFFFFFFFF#32 == 0x21000000#32) = true
  decide

theorem resetButton (k : Nat) : Statement (.resetButton k) := by
  intro _
  show (mkWord 2#4 0#2 2#2 0#8 0#16 &&& 0xFFFFFFFF#32 == 0x22000000#32) = true
  decide

theorem resetLed (k : Nat) : Statement (.resetLed k) := by
  intro _
  show (mkWord 2#4 0#2 3#2 0#8 0#16 &&& 0xFFFFFFFF#32 == 0x23000000#32) = true
  decide

theorem pinInGpio (k : Nat) (pin : Fin 16) (b : Bool) : Statement (.pinInGpio k pin b) := by
  intro h; clear h
  show (mkWord 3#4 0#2 0#2 0#8 (BitVec.ofNat 16 pin.val) &&& 0xFFFFFFF0#32 == 0x30000000#32) = true
  revert pin; decide

theorem pinInLed (k : Nat) (b : Bool) : Statement (.pinInLed k b) := by
  intro _
  show (mkWord 3#4 0#2 3#2 0#8 0#16 &&& 0xFFFFFFFF#32 == 0x33000000#32) = true
  decide

theorem connectGpio (k : Nat) (p : Fin 64) (sink : Sink) : Statement (.connectGpio k p sink) := by
  intro h; clear h
  have h : (encode (.connectGpio k p sink)).word =
      mkWord 4#4 0#2 0#2 0#8 (BitVec.ofNat 16 p.val) := by cases sink <;> rfl
  show ((encode (.connectGpio k p sink)).word &&& 0xFFFFFFC0#32 == 0x40000000#32) = true
  rw [h]
  clear h
  revert p; decide

theorem connectButton (k : Nat) (sink : Sink) : Statement (.connectButton k sink) := by
  intro _
  have h : (encode (.connectButton k sink)).word = mkWord 4#4 0#2 2#2 0#8 0#16 := by
    cases sink <;> rfl
  show ((encode (.connectButton k sink)).word &&& 0xFFFFFFFF#32 == 0x42000000#32) = true
  rw [h]; decide

theorem byteInButton (k : Nat) (x : Byte) : Statement (.byteInButton k x) := by
  intro _
  show (mkWord 5#4 0#2 2#2 0#8 0#16 &&& 0xFFFFFFFF#32 == 0x52000000#32) = true
  decide

theorem save (dev : DevRef) : Statement (.save dev) := by
  intro _
  show (mkWord 6#4 0#2 dev.cls.bits 0#8 0#16 &&& 0xFCFFFFFF#32 == 0x60000000#32) = true
  cases dev.cls <;> decide

theorem restore (dev : DevRef) (fields : Record) : Statement (.restore dev fields) := by
  intro _
  show (mkWord 7#4 0#2 dev.cls.bits 0#8 0#16 &&& 0xFCFFFFFF#32 == 0x70000000#32) = true
  cases dev.cls <;> decide

end Sys2Proof.Laws.EncodesItsRow
end

