-- ==== Sys2Proof/Laws/Wires.lean ====
section
/-! SUPPORT. What the wire operations do: delivery to sinks, SetLevel and the update algorithm
(spec/43_pinwire.md R109, spec/41_gpio_data.md R79, R86). -/

namespace Sys2Proof.Machine

/-! ### One device on a list of notifications -/

/-- An input event changes IDR at most (R86). -/
theorem Gpio.onLevel_eq (g : Gpio) (i : Fin 16) (b : Bool) :
    g.onLevel i b = { g with idr := if g.inEnabled i then setBit g.idr i b else g.idr } := by
  by_cases h : g.inEnabled i = true <;> simp [Gpio.onLevel, h]

/-- The input gate (R63). -/
theorem Gpio.inEnabled_iff (g : Gpio) (i : Fin 16) :
    g.inEnabled i = true ↔ f2 g.mode i = 0#2 ∧ f2 g.pupd i ≠ 0#2 := by
  simp [Gpio.inEnabled]

/-- What GPIO controller `n` becomes on a list of notifications. -/
def Gpio.receive (n : Nat) (g : Gpio) (ds : List Delivery) : Gpio :=
  ds.foldl (fun g d =>
    match d.1 with
    | .gpio m q => if m = n then g.onLevel q d.2 else g
    | .led _ => g) g

/-- What LED `n` becomes on a list of notifications. -/
def Led.receive (n : Nat) (l : Led) (ds : List Delivery) : Led :=
  ds.foldl (fun l d =>
    match d.1 with
    | .gpio _ _ => l
    | .led m => if m = n then l.onLevel d.2 else l) l

@[simp] theorem Gpio.receive_nil (n : Nat) (g : Gpio) : g.receive n [] = g := rfl

@[simp] theorem Led.receive_nil (n : Nat) (l : Led) : l.receive n [] = l := rfl

theorem Gpio.receive_append (n : Nat) (g : Gpio) (a b : List Delivery) :
    g.receive n (a ++ b) = (g.receive n a).receive n b := List.foldl_append

theorem Led.receive_append (n : Nat) (l : Led) (a b : List Delivery) :
    l.receive n (a ++ b) = (l.receive n a).receive n b := List.foldl_append

theorem Gpio.receive_cons (n : Nat) (g : Gpio) (d : Delivery) (ds : List Delivery) :
    g.receive n (d :: ds) = (g.receive n [d]).receive n ds := rfl

theorem Led.receive_cons (n : Nat) (l : Led) (d : Delivery) (ds : List Delivery) :
    l.receive n (d :: ds) = (l.receive n [d]).receive n ds := rfl

/-- One notification changes IDR at most (R86). -/
theorem Gpio.receive_one (n : Nat) (g : Gpio) (d : Delivery) :
    g.receive n [d] = { g with idr := (g.receive n [d]).idr } := by
  obtain ⟨k, b⟩ := d
  cases k with
  | gpio m q =>
    by_cases hm : m = n <;> simp [Gpio.receive, Gpio.onLevel_eq, hm]
  | led m => rfl

/-- Notifications change IDR at most (R86). -/
theorem Gpio.receive_eq (n : Nat) (g : Gpio) (ds : List Delivery) :
    g.receive n ds = { g with idr := (g.receive n ds).idr } := by
  induction ds generalizing g with
  | nil => rfl
  | cons d ds ih =>
    rw [Gpio.receive_cons, ih, Gpio.receive_one]

@[simp] theorem Gpio.receive_mode (n : Nat) (g : Gpio) (ds : List Delivery) :
    (g.receive n ds).mode = g.mode := by rw [Gpio.receive_eq]

@[simp] theorem Gpio.receive_pupd (n : Nat) (g : Gpio) (ds : List Delivery) :
    (g.receive n ds).pupd = g.pupd := by rw [Gpio.receive_eq]

@[simp] theorem Gpio.receive_odr (n : Nat) (g : Gpio) (ds : List Delivery) :
    (g.receive n ds).odr = g.odr := by rw [Gpio.receive_eq]

@[simp] theorem Gpio.receive_odrOld (n : Nat) (g : Gpio) (ds : List Delivery) :
    (g.receive n ds).odrOld = g.odrOld := by rw [Gpio.receive_eq]

@[simp] theorem Gpio.receive_out (n : Nat) (g : Gpio) (ds : List Delivery) :
    (g.receive n ds).out = g.out := by rw [Gpio.receive_eq]

/-- Changing the wires of a controller commutes with notifying it. -/
theorem Gpio.receive_with_out (n : Nat) (g : Gpio) (o : Vector (Option Wire) 64)
    (ds : List Delivery) :
    ({ g with out := o } : Gpio).receive n ds = { g.receive n ds with out := o } := by
  induction ds generalizing g with
  | nil => rfl
  | cons d ds ih =>
    rw [Gpio.receive_cons, Gpio.receive_cons n g, ← ih]
    congr 1
    obtain ⟨k, b⟩ := d
    cases k with
    | gpio m q =>
      by_cases hm : m = n <;> simp [Gpio.receive, Gpio.onLevel_eq, Gpio.inEnabled, hm]
    | led m => rfl

/-- Changing ODR_old of a controller commutes with notifying it. -/
theorem Gpio.receive_with_odrOld (n : Nat) (g : Gpio) (w : Word) (ds : List Delivery) :
    ({ g with odrOld := w } : Gpio).receive n ds = { g.receive n ds with odrOld := w } := by
  induction ds generalizing g with
  | nil => rfl
  | cons d ds ih =>
    rw [Gpio.receive_cons, Gpio.receive_cons n g, ← ih]
    congr 1
    obtain ⟨k, b⟩ := d
    cases k with
    | gpio m q =>
      by_cases hm : m = n <;> simp [Gpio.receive, Gpio.onLevel_eq, Gpio.inEnabled, hm]
    | led m => rfl

theorem lastDelivered_cons (k : Sink) (d : Delivery) (ds : List Delivery) (old : Bool) :
    lastDelivered k (d :: ds) old = lastDelivered k ds (if d.1 = k then d.2 else old) := by
  unfold lastDelivered
  by_cases h : d.1 = k
  · simp only [List.filter_cons, h, decide_true, if_true, List.getLast?_cons]
    cases (ds.filter fun d => d.1 = k).getLast? <;> rfl
  · simp [h]

/-- IDR after a list of notifications, bit by bit (R86, R111). -/
theorem Gpio.receive_idr_getLsbD (n : Nat) (g : Gpio) (ds : List Delivery) (j : Nat) :
    (g.receive n ds).idr.getLsbD j = idrBitAfter n g ds j := by
  induction ds generalizing g with
  | nil =>
    simp only [Gpio.receive_nil, idrBitAfter, lastDelivered, List.filter_nil, List.getLast?_nil,
      Option.map_none, Option.getD_none]
    split <;> [split <;> rfl; rfl]
  | cons d ds ih =>
    rw [Gpio.receive_cons, ih]
    unfold idrBitAfter
    simp only [Gpio.receive_mode, Gpio.receive_pupd, lastDelivered_cons]
    have h1 : ∀ j, (g.receive n [d]).idr.getLsbD j =
        if h : j < 16 then
          if f2 g.mode ⟨j, h⟩ = 0#2 ∧ f2 g.pupd ⟨j, h⟩ ≠ 0#2 then
            if d.1 = .gpio n ⟨j, h⟩ then d.2 else g.idr.getLsbD j
          else g.idr.getLsbD j
        else g.idr.getLsbD j := by
      intro j
      obtain ⟨k, b⟩ := d
      cases k with
      | led m => simp [Gpio.receive]
      | gpio m q =>
        by_cases hm : m = n
        · subst hm
          simp only [Gpio.receive, List.foldl, Gpio.onLevel_eq, if_true, Sink.gpio.injEq,
            true_and, Fin.ext_iff]
          by_cases hj : j = q.val
          · subst hj
            simp only [q.isLt, dite_true, Fin.eta, if_true, ← Gpio.inEnabled_iff]
            by_cases hg : g.inEnabled q = true <;> simp [hg, setBit_getLsbD]
          · have hj' : ¬ q.val = j := fun h => hj h.symm
            simp only [hj', if_false, ite_self, dite_eq_ite]
            by_cases hg : g.inEnabled q = true <;> simp [hg, setBit_getLsbD, hj]
        · simp [Gpio.receive, hm]
    split
    · split
      · rename_i hj hg
        rw [h1 j, dif_pos hj, if_pos hg]
      · rename_i hj hg
        rw [h1 j, dif_pos hj, if_neg hg]
    · rename_i hj
      rw [h1 j, dif_neg hj]

/-- An LED after a list of notifications (R113). -/
theorem Led.receive_eq (n : Nat) (l : Led) (ds : List Delivery) :
    l.receive n ds =
      { l with
        lastLevel := lastDelivered (.led n) ds l.lastLevel
        out := l.out ++ ledBytes n ds } := by
  induction ds generalizing l with
  | nil => simp [lastDelivered, ledBytes]
  | cons d ds ih =>
    rw [Led.receive_cons, ih, lastDelivered_cons]
    obtain ⟨k, b⟩ := d
    cases k with
    | gpio m q => simp [Led.receive, ledBytes]
    | led m =>
      by_cases hm : m = n
      · subst hm
        simp [Led.receive, Led.onLevel, ledBytes, levelByte]
      · simp [Led.receive, ledBytes, hm]

/-! ### The state on a list of notifications -/

/-- Deliver a list of notifications in order. -/
def State.deliverList (s : State) (ds : List Delivery) : State :=
  ds.foldl (fun t d => t.deliver d.1 d.2) s

@[simp] theorem State.deliverList_nil (s : State) : s.deliverList [] = s := rfl

theorem State.deliverList_append (s : State) (a b : List Delivery) :
    s.deliverList (a ++ b) = (s.deliverList a).deliverList b := List.foldl_append

theorem State.deliverAll_eq (s : State) (subs : List Sink) (b : Bool) :
    s.deliverAll subs b = s.deliverList (subs.map fun k => (k, b)) := by
  simp [State.deliverAll, State.deliverList, List.foldl_map]

/-- Everything that a state changed by driving wires of one controller or Button keeps, and what its
sinks received: `t` is `s` with controller `k` given the wires `outs` and then the notifications `ds`
delivered. -/
structure Driven (s t : State) (ds : List Delivery) : Prop where
  frame : t = { s with gpios := t.gpios, leds := t.leds }
  gpios : ∀ n, t.gpios[n]? = s.gpios[n]?.map fun g : Gpio => g.receive n ds
  leds : ∀ n, t.leds[n]? = s.leds[n]?.map fun l : Led => l.receive n ds

theorem Driven.refl (s : State) : Driven s s [] :=
  ⟨rfl, fun n => by simp, fun n => by simp⟩

theorem Driven.trans {s t u : State} {a b : List Delivery} (h : Driven s t a) (h' : Driven t u b) :
    Driven s u (a ++ b) where
  frame := by
    rw [h'.frame, h.frame]
  gpios n := by
    rw [h'.gpios, h.gpios, Option.map_map]
    simp [Function.comp_def, Gpio.receive_append]
  leds n := by
    rw [h'.leds, h.leds, Option.map_map]
    simp [Function.comp_def, Led.receive_append]

/-- One delivery (R86, R113). -/
theorem State.deliver_driven (s : State) (k : Sink) (b : Bool) :
    Driven s (s.deliver k b) [(k, b)] := by
  cases k with
  | gpio m q =>
    refine ⟨rfl, fun n => ?_, fun n => ?_⟩
    · simp only [State.deliver, State.modifyGpio_gpios, List.getElem?_modify]
      cases s.gpios[n]? <;> simp [Gpio.receive]
    · simp only [State.deliver, State.modifyGpio_leds]
      cases s.leds[n]? <;> simp [Led.receive]
  | led m =>
    refine ⟨rfl, fun n => ?_, fun n => ?_⟩
    · simp only [State.deliver, State.modifyLed_gpios]
      cases s.gpios[n]? <;> simp [Gpio.receive]
    · simp only [State.deliver, State.modifyLed_leds, List.getElem?_modify]
      cases s.leds[n]? <;> simp [Led.receive]

/-- A list of deliveries (R109). -/
theorem State.deliverList_driven (s : State) (ds : List Delivery) :
    Driven s (s.deliverList ds) ds := by
  induction ds generalizing s with
  | nil => exact Driven.refl s
  | cons d ds ih => exact (s.deliver_driven d.1 d.2).trans (ih (s.deliver d.1 d.2))

end Sys2Proof.Machine
end

