-- ==== Sys2Proof/Laws/Update.lean ====
section
/-! SUPPORT. SetLevel and the update algorithm, said once (spec/43_pinwire.md R109;
spec/41_gpio_data.md R79, R87): the wires they change and the notifications they cause. -/

namespace Sys2Proof.Machine

/-- `t` is `s` after wires of GPIO controller `k` (which is `g` in `s`) became `outs` and the
notifications `ds` were delivered; nothing else changed. -/
structure GpioDriven (s t : State) (k : Nat) (g : Gpio) (outs : Vector (Option Wire) 64)
    (ds : List Delivery) : Prop where
  frame : t = { s with gpios := t.gpios, leds := t.leds }
  self : t.gpios[k]? = some (({ g with out := outs } : Gpio).receive k ds)
  others : ∀ n, n ≠ k → t.gpios[n]? = s.gpios[n]?.map fun g : Gpio => g.receive n ds
  leds : ∀ n, t.leds[n]? = s.leds[n]?.map fun l : Led => l.receive n ds

/-- Driving an endpoint (R109, D26). -/
theorem State.setGpioLevel_driven (s : State) (k : Nat) (g : Gpio) (hg : s.gpios[k]? = some g)
    (p : Fin 64) (b : Bool) :
    GpioDriven s (s.setGpioLevel k p b) k g (g.out.set p.val (drivenWire g.out[p] b))
      (notifications g.out[p] b) := by
  have hw : s.gpioWire k p = g.out[p] := by simp [State.gpioWire, hg]
  have same : drivenWire g.out[p] b = g.out[p] → notifications g.out[p] b = [] →
      GpioDriven s s k g (g.out.set p.val (drivenWire g.out[p] b)) (notifications g.out[p] b) := by
    intro h1 h2
    have h3 : g.out.set p.val (drivenWire g.out[p] b) = g.out := by
      rw [h1]; exact Vector.set_getElem_self ..
    rw [h2, h3]
    exact ⟨rfl, by simpa using hg, fun n _ => by simp, fun n => by simp⟩
  unfold State.setGpioLevel
  rw [hw]
  cases hout : g.out[p] with
  | none => rw [hout] at same; exact same rfl rfl
  | some w =>
    rw [hout] at same
    by_cases hb : b = w.level
    · simp only [hb, if_true]
      subst hb
      exact same rfl (by simp [notifications])
    · simp only [hb, if_false, State.deliverAll_eq]
      have hn : notifications (some w) b = w.subs.map fun k => (k, b) := by
        rw [notifications, if_neg fun h => hb h.symm]
      rw [hn]
      have hd := (s.setGpioWire k p { w with level := b }).deliverList_driven
        (w.subs.map fun k => (k, b))
      refine ⟨hd.frame, ?_, fun n hn => ?_, hd.leds⟩
      · rw [hd.gpios]
        simp [State.setGpioWire_eq, hg, drivenWire]
      · rw [hd.gpios]
        simp [State.setGpioWire_eq, Ne.symm hn]

/-- Driving a Button's wire (R109, R112). -/
theorem State.setButtonLevel_driven (s : State) (k : Nat) (u : Button)
    (hu : s.buttons[k]? = some u) (b : Bool) :
    Driven { s with buttons := s.buttons.set k { u with out := drivenWire u.out b } }
      (s.setButtonLevel k b) (notifications u.out b) := by
  have hw : s.buttonWire k = u.out := by simp [State.buttonWire, hu]
  have same : drivenWire u.out b = u.out → notifications u.out b = [] →
      Driven { s with buttons := s.buttons.set k { u with out := drivenWire u.out b } } s
        (notifications u.out b) := by
    intro h1 h2
    have h3 : s.buttons.set k u = s.buttons := by
      obtain ⟨hk, rfl⟩ := List.getElem?_eq_some_iff.mp hu
      exact List.set_getElem_self hk
    rw [h1, h2]
    show Driven { s with buttons := s.buttons.set k u } s []
    rw [h3]
    exact Driven.refl s
  unfold State.setButtonLevel
  rw [hw]
  cases hout : u.out with
  | none => rw [hout] at same; exact same rfl rfl
  | some w =>
    rw [hout] at same
    by_cases hb : b = w.level
    · simp only [hb, if_true]
      subst hb
      exact same rfl (by simp [notifications])
    · simp only [hb, if_false, State.deliverAll_eq]
      have hn : notifications (some w) b = w.subs.map fun k => (k, b) := by
        rw [notifications, if_neg fun h => hb h.symm]
      rw [hn]
      have hs : s.setButtonWire k { w with level := b } =
          { s with buttons := s.buttons.set k { u with out := drivenWire (some w) b } } := by
        simp only [State.setButtonWire_eq, State.modifyButton, State.mk.injEq, true_and, and_true]
        apply List.ext_getElem?
        intro n
        rw [List.getElem?_modify, List.getElem?_set]
        obtain ⟨hk, hk'⟩ := List.getElem?_eq_some_iff.mp hu
        by_cases h : k = n
        · subst h; simp [hk, ← hk', drivenWire]
        · simp [h]
      rw [hs]
      exact State.deliverList_driven _ _

/-- The wires of a controller after the pins `ps` were visited. -/
def outsAfter (g : Gpio) (ps : List (Fin 16)) : Vector (Option Wire) 64 :=
  ps.foldl (fun o i =>
    if g.emits i then
      o.set (endpointOf i).val (drivenWire g.out[endpointOf i] (g.odr.getLsbD i.val))
    else o) g.out

/-- The notifications of the pins `ps`. -/
def notifiesOf (g : Gpio) (ps : List (Fin 16)) : List Delivery :=
  ps.flatMap fun i =>
    if g.emits i then notifications g.out[endpointOf i] (g.odr.getLsbD i.val) else []

/-- The loop's test is `emits` (R79). -/
theorem Gpio.emits_eq (g : Gpio) (i : Fin 16) :
    g.emits i = (f1 g.changed i && g.outEnabled i) := by
  simp only [Gpio.emits, f1, Gpio.changed, Gpio.outEnabled, BitVec.getLsbD_xor]
  cases g.odr.getLsbD i.val <;> cases g.odrOld.getLsbD i.val <;> rfl

theorem endpointOf_inj {i j : Fin 16} (h : (endpointOf i).val = (endpointOf j).val) : i = j :=
  Fin.ext h

/-- A pin that was not visited keeps its wire. -/
theorem outsAfter_getElem_of_not_mem (g : Gpio) (ps : List (Fin 16)) (p : Fin 64)
    (h : ∀ i ∈ ps, endpointOf i ≠ p) : (outsAfter g ps)[p] = g.out[p] := by
  suffices ∀ o : Vector (Option Wire) 64, o[p] = g.out[p] →
      (ps.foldl (fun o i =>
        if g.emits i then
          o.set (endpointOf i).val (drivenWire g.out[endpointOf i] (g.odr.getLsbD i.val))
        else o) o)[p] = g.out[p] from this g.out rfl
  induction ps with
  | nil => intro o ho; exact ho
  | cons i ps ih =>
    intro o ho
    rw [List.foldl_cons]
    apply ih fun j hj => h j (List.mem_cons_of_mem _ hj)
    have hi : (endpointOf i).val ≠ p.val := fun e => h i List.mem_cons_self (Fin.ext e)
    split
    · rw [Fin.getElem_fin, Vector.getElem_set_ne _ _ hi]
      exact ho
    · exact ho

/-- The loop of R79 over pins with no repeats. -/
theorem State.updatePins_driven (s : State) (k : Nat) (g : Gpio) (hg : s.gpios[k]? = some g)
    (ps : List (Fin 16)) (hps : ps.Nodup) :
    GpioDriven s (ps.foldl (State.updatePin k g.changed) s) k g (outsAfter g ps)
      (notifiesOf g ps) := by
  induction ps using List.reverseRecOn with
  | nil => exact ⟨rfl, by simpa [outsAfter, notifiesOf] using hg,
      fun n _ => by simp [notifiesOf], fun n => by simp [notifiesOf]⟩
  | append_singleton ps i ih =>
    have hnd := List.nodup_append.mp hps
    have ih := ih hnd.1
    have hi : ∀ j ∈ ps, endpointOf j ≠ endpointOf i := by
      intro j hj e
      have : j = i := endpointOf_inj (congrArg Fin.val e)
      exact hnd.2.2 j hj i (by simp) this
    rw [List.foldl_append, List.foldl_cons, List.foldl_nil]
    generalize ps.foldl (State.updatePin k g.changed) s = t at ih
    have hout : (outsAfter g ps)[endpointOf i] = g.out[endpointOf i] :=
      outsAfter_getElem_of_not_mem g ps _ hi
    have houts : outsAfter g (ps ++ [i]) =
        if g.emits i then (outsAfter g ps).set (endpointOf i).val
          (drivenWire g.out[endpointOf i] (g.odr.getLsbD i.val)) else outsAfter g ps := by
      simp only [outsAfter, List.foldl_append, List.foldl_cons, List.foldl_nil]
    have hnot : notifiesOf g (ps ++ [i]) = notifiesOf g ps ++
        if g.emits i then notifications g.out[endpointOf i] (g.odr.getLsbD i.val) else [] := by
      simp [notifiesOf]
    rw [houts, hnot]
    generalize outsAfter g ps = o at *
    generalize notifiesOf g ps = ds at *
    have hself := ih.self
    have hmode : (f1 g.changed i &&
        (({ g with out := o } : Gpio).receive k ds).outEnabled i) = g.emits i := by
      rw [Gpio.emits_eq]; simp [Gpio.outEnabled]
    unfold State.updatePin
    rw [hself]
    simp only [hmode, Gpio.receive_odr]
    by_cases he : g.emits i = true
    · simp only [he, if_true]
      have hd := t.setGpioLevel_driven k _ hself (endpointOf i) (f1 g.odr i)
      rw [Gpio.receive_out, hout] at hd
      generalize t.setGpioLevel k (endpointOf i) (f1 g.odr i) = t' at hd
      refine ⟨?_, ?_, fun n hn => ?_, fun n => ?_⟩
      · rw [hd.frame, ih.frame]
      · rw [hd.self, Gpio.receive_append, ← Gpio.receive_with_out]
        rfl
      · rw [hd.others n hn, ih.others n hn, Option.map_map]
        simp [Function.comp_def, Gpio.receive_append, f1]
      · rw [hd.leds n, ih.leds n, Option.map_map]
        simp [Function.comp_def, Led.receive_append, f1]
    · simpa [he] using ih

/-- A visited pin's wire (R79). -/
theorem outsAfter_getElem_of_mem (g : Gpio) (ps : List (Fin 16)) (hps : ps.Nodup) (i : Fin 16)
    (hi : i ∈ ps) :
    (outsAfter g ps)[endpointOf i] =
      if g.emits i then drivenWire g.out[endpointOf i] (g.odr.getLsbD i.val)
      else g.out[endpointOf i] := by
  induction ps using List.reverseRecOn with
  | nil => simp at hi
  | append_singleton ps j ih =>
    have hnd := List.nodup_append.mp hps
    have houts : outsAfter g (ps ++ [j]) =
        if g.emits j then (outsAfter g ps).set (endpointOf j).val
          (drivenWire g.out[endpointOf j] (g.odr.getLsbD j.val)) else outsAfter g ps := by
      simp only [outsAfter, List.foldl_append, List.foldl_cons, List.foldl_nil]
    rw [houts]
    by_cases hij : i = j
    · subst hij
      have hkeep : (outsAfter g ps)[endpointOf i] = g.out[endpointOf i] := by
        apply outsAfter_getElem_of_not_mem
        intro j hj e
        exact hnd.2.2 j hj i (by simp) (endpointOf_inj (congrArg Fin.val e))
      by_cases he : g.emits i = true
      · simp [he]
      · simpa [he] using hkeep
    · have hmem : i ∈ ps := by simpa [hij] using hi
      have hne : (endpointOf j).val ≠ (endpointOf i).val := fun e => hij (endpointOf_inj e).symm
      rw [← ih hnd.1 hmem]
      by_cases he : g.emits j = true
      · rw [if_pos he, Fin.getElem_fin, Vector.getElem_set_ne _ _ hne]
        rfl
      · rw [if_neg he]

theorem mem_pins (i : Fin 16) : i ∈ pins := by revert i; decide

theorem pins_nodup : pins.Nodup := by decide

/-- The whole loop's wires, endpoint by endpoint (R79, R87). -/
theorem outsAfter_pins_getElem (g : Gpio) (p : Fin 64) :
    (outsAfter g pins)[p] = g.wireAfter p := by
  unfold Gpio.wireAfter
  by_cases h : p.val < 16
  · rw [dif_pos h]
    exact outsAfter_getElem_of_mem g pins pins_nodup ⟨p.val, h⟩ (mem_pins _)
  · rw [dif_neg h]
    apply outsAfter_getElem_of_not_mem
    intro i _ e
    have := congrArg Fin.val e
    simp [endpointOf] at this
    omega

/-- The update algorithm, said once (R79): controller `k` has the wires `wireAfter` and
`ODR_old = ODR`, the notifications were delivered in order, and nothing else changed. -/
theorem State.update_driven (s : State) (k : Nat) (g : Gpio) (hg : s.gpios[k]? = some g) :
    GpioDriven s (s.update k) k { g with odrOld := g.odr } (outsAfter g pins) g.notifies := by
  have hd := s.updatePins_driven k g hg pins pins_nodup
  have hn : notifiesOf g pins = g.notifies := rfl
  rw [hn] at hd
  have hu : s.update k = (pins.foldl (State.updatePin k g.changed) s).modifyGpio k fun g =>
      { g with odrOld := g.odr } := by simp only [State.update, hg]
  rw [hu]
  generalize pins.foldl (State.updatePin k g.changed) s = t at hd
  generalize outsAfter g pins = o at hd
  refine ⟨?_, ?_, fun n hn => ?_, fun n => ?_⟩
  · rw [State.modifyGpio, hd.frame]
  · rw [State.modifyGpio_gpios, List.getElem?_modify_eq, hd.self]
    have e : ∀ x : Gpio, { x.receive k g.notifies with odrOld := (x.receive k g.notifies).odr } =
        ({ x with odrOld := x.odr } : Gpio).receive k g.notifies := fun x =>
      (congrArg (fun w => ({ x.receive k g.notifies with odrOld := w } : Gpio))
        (Gpio.receive_odr k x g.notifies)).trans (Gpio.receive_with_odrOld k x x.odr g.notifies).symm
    exact congrArg some (e { g with out := o })
  · rw [State.modifyGpio_gpios, List.getElem?_modify_ne _ _ (Ne.symm hn)]
    exact hd.others n hn
  · rw [State.modifyGpio_leds]
    exact hd.leds n

end Sys2Proof.Machine
end

