-- ==== Sys2Proof/Laws/Requests.lean ====
section
/-! SUPPORT. What the shared operations behind the requests answer, said once: output writes
(spec/41_gpio_data.md R83, R85), deliveries, CONNECT (spec/43_pinwire.md R108), the Button's byte (R112)
and RESTORE (spec/70_reset_and_hazards.md R136). -/

namespace Sys2Proof.Machine

open Sys2Proof.Config

/-! ### Lists of devices -/

theorem getElem?_set_of_some {α : Type} {l : List α} {k : Nat} {a : α} (h : l[k]? = some a) (b : α) :
    (l.set k b)[k]? = some b := by
  obtain ⟨hk, _⟩ := List.getElem?_eq_some_iff.mp h
  simp [hk]

theorem set_of_getElem?_eq {α : Type} {l : List α} {k : Nat} {a : α} (h : l[k]? = some a) :
    l.set k a = l := by
  obtain ⟨hk, rfl⟩ := List.getElem?_eq_some_iff.mp h
  exact List.set_getElem_self hk

/-- Two lists whose entries agree up to a function on each have the same length. -/
theorem length_eq_of_getElem?_map {α β : Type} {l : List α} {m : List β} {f : Nat → β → α}
    (h : ∀ n, l[n]? = m[n]?.map (f n)) : l.length = m.length := by
  apply Nat.le_antisymm
  · have := h m.length
    simpa using this
  · have := (h l.length).symm
    simpa using this

/-! ### Driving wires -/

/-- Driving wires and delivering levels keeps the number of devices. -/
theorem Driven.lengths {s t : State} {ds : List Delivery} (h : Driven s t ds) :
    t.gpios.length = s.gpios.length ∧ t.leds.length = s.leds.length :=
  ⟨length_eq_of_getElem?_map h.gpios, length_eq_of_getElem?_map h.leds⟩

/-- So does driving a controller's own wires. -/
theorem GpioDriven.lengths {s t : State} {k : Nat} {g : Gpio} {outs : Vector (Option Wire) 64}
    {ds : List Delivery} (h : GpioDriven s t k g outs ds) (hk : k < s.gpios.length) :
    t.gpios.length = s.gpios.length ∧ t.leds.length = s.leds.length := by
  refine ⟨Nat.le_antisymm ?_ ?_, length_eq_of_getElem?_map h.leds⟩
  · have := h.others s.gpios.length (by omega)
    simpa using this
  · by_cases e : t.gpios.length = k
    · have := h.self
      rw [← e] at this
      simp at this
    · have := (h.others t.gpios.length e).symm
      simpa using this

/-! ### Requests -/

/-- A write of ODR or BSRR (R83, R85): the registers change as `f` says, then the update algorithm runs
once. -/
theorem writeOutput_driven {s : State} {k : Nat} {g : Gpio} (hg : s.gpios[k]? = some g)
    (f : Gpio → Gpio) :
    ∃ t, writeOutput k s f = .next (t.answer .done) ∧
      GpioDriven { s with gpios := s.gpios.set k (f g) } t k { f g with odrOld := (f g).odr }
        (outsAfter (f g) pins) (f g).notifies := by
  refine ⟨_, s.onGpio_of_some hg _, ?_⟩
  rw [State.modifyGpio_of_some hg]
  exact State.update_driven _ k (f g) (getElem?_set_of_some hg _)

/-- A CONNECT at a GPIO controller that exists (R108). -/
theorem execConnectGpio_of_some {s : State} {k : Nat} {g : Gpio} (hg : s.gpios[k]? = some g)
    (p : Fin 64) (sink : Sink) :
    execConnectGpio k p sink s =
      if s.hasDevice (sinkDev sink) then
        .next { s with
          gpios := s.gpios.set k { g with out := g.out.set p.val (some (connectWire g.out[p] sink)) }
          reply := .done }
      else .refused (.noSuchDevice (sinkDev sink)) := by
  have hw : s.gpioWire k p = g.out[p] := by simp [State.gpioWire, hg]
  rw [execConnectGpio, State.onGpio_of_some hg, hw, State.setGpioWire, State.modifyGpio_of_some hg]
  rfl

/-- A CONNECT at a Button that exists (R108). -/
theorem execConnectButton_of_some {s : State} {k : Nat} {u : Button} (hu : s.buttons[k]? = some u)
    (sink : Sink) :
    execConnectButton k sink s =
      if s.hasDevice (sinkDev sink) then
        .next { s with
          buttons := s.buttons.set k { u with out := some (connectWire u.out sink) }
          reply := .done }
      else .refused (.noSuchDevice (sinkDev sink)) := by
  have hw : s.buttonWire k = u.out := by simp [State.buttonWire, hu]
  rw [execConnectButton, State.onButton_of_some hu, hw, State.setButtonWire,
    State.modifyButton_of_some hu]
  rfl

/-- A byte at a Button that exists (R112). -/
theorem execByteInButton_driven {s : State} {k : Nat} {u : Button} (hu : s.buttons[k]? = some u)
    (x : Byte) :
    ∃ t, execByteInButton k x s = .next (t.answer .done) ∧
      Driven { s with
          buttons := s.buttons.set k
            { u with lastLevel := x != 0#8, out := drivenWire u.out (x != 0#8) } }
        t (notifications u.out (x != 0#8)) := by
  refine ⟨_, s.onButton_of_some hu _, ?_⟩
  rw [State.modifyButton_of_some hu]
  have h := State.setButtonLevel_driven
    { s with buttons := s.buttons.set k { u with lastLevel := x != 0#8 } } k _
    (getElem?_set_of_some hu { u with lastLevel := x != 0#8 }) (x != 0#8)
  rw [List.set_set] at h
  exact h

/-! ### Snapshot -/

/-- What RESTORE answers (R136): a next state, or a refusal of the record. -/
theorem accepted_cases (t : Option State) :
    (∃ u, t = some u ∧ accepted t = .next (u.answer .done)) ∨
    (t = none ∧ accepted t = .refused .malformedRecord) := by
  cases t with
  | some u => exact .inl ⟨u, rfl, rfl⟩
  | none => exact .inr ⟨rfl, rfl⟩

/-- A record without the field has no entry for it. -/
theorem findField_eq_none {rec : Record} {f : SnapField} (h : ∀ e ∈ rec, e.field ≠ f) (w : Nat) :
    findField rec f w = none := by
  rw [findField, List.find?_eq_none]
  intro e he
  simp [h e he]

/-- A found entry is one of the record's, of the field and of the width. -/
theorem findField_of_some {rec : Record} {f : SnapField} {w : Nat} {e : SnapEntry}
    (h : findField rec f w = some e) : e ∈ rec ∧ e.field = f ∧ e.width = w := by
  have h1 := List.mem_of_find?_eq_some h
  have h2 := List.find?_some h
  simp only [Bool.and_eq_true, beq_iff_eq] at h2
  exact ⟨h1, h2⟩

/-- The head of a record is found if it is the field's. -/
theorem findField_cons (f g : SnapField) (w : Word) (rec : Record) :
    findField (⟨f, 32, w⟩ :: rec) g 32 = if f = g then some ⟨f, 32, w⟩ else findField rec g 32 := by
  by_cases h : f = g <;> simp [findField, h]

/-- A register field that the record has (R136). -/
theorem restoreWord_of_find {p : Params} {c : DevClass} {rec : Record} {f : SnapField} {w : Word}
    (h : findField rec f 32 = some ⟨f, 32, w⟩) (cur : Word) :
    restoreWord p c rec f cur = some w := by
  rw [restoreWord, h]
  simp

/-- A register field that the record lacks (R136). -/
theorem restoreWord_of_absent {p : Params} {c : DevClass} {rec : Record} {f : SnapField}
    (h : ∀ e ∈ rec, e.field ≠ f) (cur : Word) :
    restoreWord p c rec f cur = if p.legacyField = some (c, f) then some cur else none := by
  rw [restoreWord, findField_eq_none h]
  by_cases h' : p.legacyField = some (c, f) <;> simp [mayBeAbsent, h']

/-- A level that the record lacks (R136). -/
theorem restoreLevel_of_absent {p : Params} {c : DevClass} {rec : Record}
    (h : ∀ e ∈ rec, e.field ≠ .lastLevel) (cur : Bool) :
    restoreLevel p c rec cur =
      if p.legacyField = some (c, .lastLevel) then some cur else none := by
  rw [restoreLevel, findField_eq_none h]
  by_cases h' : p.legacyField = some (c, .lastLevel) <;> simp [mayBeAbsent, h']

/-- A level that the record has (R136): non-zero is 1. -/
theorem restoreLevel_singleton (p : Params) (c : DevClass) (x : BitVec p.snapLevelWidth)
    (cur : Bool) :
    restoreLevel p c [⟨.lastLevel, p.snapLevelWidth, x⟩] cur =
      some (x != 0#p.snapLevelWidth) := by
  simp [restoreLevel, findField]

/-- A restored controller keeps its identity, its wires and its placement (R136). -/
theorem Gpio.restore_keeps {p : Params} {rec : Record} {g g' : Gpio}
    (h : Gpio.restore p rec g = some g') :
    g'.id = g.id ∧ g'.out = g.out ∧ g'.place = g.place := by
  simp only [Gpio.restore, Option.pure_def, Option.bind_eq_bind, Option.bind_eq_some_iff,
    Option.some.injEq] at h
  obtain ⟨_, _, _, _, _, _, _, _, _, _, _, _, _, _, _, _, _, _, _, _, _, _, rfl⟩ := h
  exact ⟨rfl, rfl, rfl⟩

/-- RESTORE of a CSR bank (R136) over some of its registers: if each of them has a new value `v m`, those
registers take it and the others stay. -/
theorem CsrBank.restoreRegs_of_words {p : Params} {rec : Record} {v : Fin 14 → Word}
    (ms : List (Fin 14)) (b : CsrBank)
    (h : ∀ m : Fin 14, restoreWord p .csr rec (.reg m) b.regs[m] = some (v m))
    (hnd : ms.Nodup) :
    ∃ regs : Vector Word 14, ms.foldlM (CsrBank.restoreReg p rec) b = some { b with regs := regs } ∧
      ∀ m : Fin 14, regs[m] = if m ∈ ms then v m else b.regs[m] := by
  induction ms using List.reverseRecOn with
  | nil => exact ⟨b.regs, rfl, fun m => by simp⟩
  | append_singleton ms i ih =>
    obtain ⟨hms, _, hdis⟩ := List.nodup_append.mp hnd
    obtain ⟨regs, e, hr⟩ := ih hms
    have hi : i ∉ ms := fun hm => hdis i hm i (by simp) rfl
    refine ⟨regs.set i.val (v i), ?_, fun m => ?_⟩
    · rw [List.foldlM_append, e]
      have hw : restoreWord p .csr rec (.reg i) regs[i] = some (v i) := by
        rw [hr, if_neg hi]; exact h i
      simp [CsrBank.restoreReg] at hw ⊢
      rw [hw]
      rfl
    · by_cases hm : m = i
      · subst hm; simp
      · have hne : i.val ≠ m.val := fun e => hm (Fin.ext e.symm)
        rw [Fin.getElem_fin, Vector.getElem_set_ne _ _ hne]
        simpa [hm] using hr m

/-- RESTORE of a CSR bank (R136): if every register has a new value, the bank takes them all. -/
theorem CsrBank.restore_of_words {p : Params} {rec : Record} {b : CsrBank} {v : Fin 14 → Word}
    (h : ∀ m : Fin 14, restoreWord p .csr rec (.reg m) b.regs[m] = some (v m)) :
    ∃ regs : Vector Word 14, CsrBank.restore p rec b = some { b with regs := regs } ∧
      ∀ m : Fin 14, regs[m] = v m := by
  obtain ⟨regs, e, hr⟩ := CsrBank.restoreRegs_of_words csrNumbers b h (by decide)
  exact ⟨regs, e, fun m => by rw [hr m, if_pos (by revert m; decide)]⟩

/-- A restored CSR bank keeps its placement (R136). -/
theorem CsrBank.restore_keeps {p : Params} {rec : Record} {b b' : CsrBank}
    (h : CsrBank.restore p rec b = some b') : b'.place = b.place := by
  unfold CsrBank.restore at h
  generalize csrNumbers = ms at h
  induction ms generalizing b with
  | nil => simp only [List.foldlM_nil, Option.pure_def, Option.some.injEq] at h; rw [h]
  | cons m ms ih =>
    simp only [List.foldlM_cons, Option.bind_eq_bind, Option.bind_eq_some_iff] at h
    obtain ⟨b1, h1, h2⟩ := h
    rw [ih h2]
    simp only [CsrBank.restoreReg, Option.pure_def, Option.bind_eq_bind, Option.bind_eq_some_iff,
      Option.some.injEq] at h1
    obtain ⟨_, _, rfl⟩ := h1
    rfl

end Sys2Proof.Machine
end

