-- ==== Sys2Proof/Laws/Step.lean ====
section
/-! SUPPORT. What a step can do, said once: every next state of exec is one of thirteen effects, so that
a statement about every step is proved effect by effect and no proof unfolds the 61 meanings again. -/

namespace Sys2Proof.Machine

open Sys2Proof.Config

/-- The effect of request `i` on state `s`. -/
inductive Effect (s : State) (i : Instr) : State → Prop where
  /-- A read, a write of IDR or a SAVE: nothing but the reply. -/
  | answered (r : Reply) : Effect s i (s.answer r)
  /-- An access that is not valid (R116). -/
  | faulted (dev : DevRef) (off : BitVec 16) (kind : AccessKind) :
      Effect s i (s.raiseInvalidOffset dev off kind)
  /-- A write of a configuration register (R65 to R77). -/
  | configured (k : Nat) (g g' : Gpio) (hg : s.gpios[k]? = some g)
      (h : g' = { g' with
        id := g.id, idr := g.idr, odr := g.odr, odrOld := g.odrOld, out := g.out, place := g.place }) :
      Effect s i { s with gpios := s.gpios.set k g', reply := .done }
  /-- A write of ODR or BSRR (R83, R85): the new data, then the update algorithm. -/
  | driven (k : Nat) (g g' : Gpio) (t : State) (hg : s.gpios[k]? = some g)
      (h : g' = { g with odr := g'.odr, bsr := g'.bsr })
      (hd : GpioDriven { s with gpios := s.gpios.set k g' } t k { g' with odrOld := g'.odr }
        (outsAfter g' pins) g'.notifies) : Effect s i (t.answer .done)
  /-- An input event (R86). -/
  | sampled (k : Nat) (g : Gpio) (pin : Fin 16) (b : Bool) (hg : s.gpios[k]? = some g) :
      Effect s i { s with gpios := s.gpios.set k (g.onLevel pin b), reply := .done }
  /-- RESET.GPIO (R129). -/
  | gpioReset (k : Nat) (g : Gpio) (hg : s.gpios[k]? = some g) :
      Effect s i { s with gpios := s.gpios.set k (g.reset s.cfg), reply := .done }
  /-- RESTORE of a GPIO controller (R136). -/
  | gpioRestored (k : Nat) (fields : Record) (g g' : Gpio) (hi : i = .restore ⟨.gpio, k⟩ fields)
      (hg : s.gpios[k]? = some g) (h : Gpio.restore s.cfg fields g = some g') :
      Effect s i { s with gpios := s.gpios.set k g', reply := .done }
  /-- CONNECT.GPIO (R108). -/
  | gpioConnected (k : Nat) (g : Gpio) (p : Fin 64) (sink : Sink) (hg : s.gpios[k]? = some g)
      (hs : s.hasDevice (sinkDev sink) = true) :
      Effect s i { s with
        gpios := s.gpios.set k { g with out := g.out.set p.val (some (connectWire g.out[p] sink)) }
        reply := .done }
  /-- A write, a reset or a RESTORE of a CSR bank (R89, R130, R136). -/
  | csr (k : Nat) (b b' : CsrBank) (hb : s.csrs[k]? = some b) (h : b'.place = b.place) :
      Effect s i { s with csrs := s.csrs.set k b', reply := .done }
  /-- A reset or a RESTORE of a Button (R131, R136). -/
  | button (k : Nat) (u : Button) (b : Bool) (hu : s.buttons[k]? = some u) :
      Effect s i { s with buttons := s.buttons.set k { u with lastLevel := b }, reply := .done }
  /-- CONNECT.BUTTON (R108). -/
  | buttonConnected (k : Nat) (u : Button) (sink : Sink) (hu : s.buttons[k]? = some u)
      (hs : s.hasDevice (sinkDev sink) = true) :
      Effect s i { s with
        buttons := s.buttons.set k { u with out := some (connectWire u.out sink) }
        reply := .done }
  /-- A byte at a Button (R112). -/
  | byteIn (k : Nat) (u : Button) (b : Bool) (t : State) (hu : s.buttons[k]? = some u)
      (hd : Driven { s with
          buttons := s.buttons.set k { u with lastLevel := b, out := drivenWire u.out b } }
        t (notifications u.out b)) : Effect s i (t.answer .done)
  /-- A level at an LED, its reset or its RESTORE (R113, R131, R136). -/
  | led (k : Nat) (l l' : Led) (hl : s.leds[k]? = some l) (hp : l'.place = l.place)
      (ho : l.out <+: l'.out) : Effect s i { s with leds := s.leds.set k l', reply := .done }

variable {s t : State} {i : Instr} {k : Nat}

/-- A register read of a GPIO controller. -/
theorem readGpio_effect {r : GpioReg} {n : Width} (h : readGpio r k n s = .next t) : Effect s i t := by
  obtain ⟨g, _, e⟩ | ⟨_, e⟩ := s.onGpio_cases k fun g =>
    .next (s.answer (.value (BusVal.ofWord n (g.readReg r))))
  · rw [readGpio, e] at h; cases h; exact .answered _
  · rw [readGpio, e] at h; cases h

/-- A register read of a CSR bank. -/
theorem readCsr_effect {m : Fin 14} {n : Width} (h : readCsr m k n s = .next t) : Effect s i t := by
  obtain ⟨b, _, e⟩ | ⟨_, e⟩ := s.onCsr_cases k fun b =>
    .next (s.answer (.value (BusVal.ofWord n b.regs[m])))
  · rw [readCsr, e] at h; cases h; exact .answered _
  · rw [readCsr, e] at h; cases h

/-- A write of a configuration register. -/
theorem writeGpio_effect {f : Gpio → Gpio}
    (hf : ∀ g, f g = { f g with
      id := g.id, idr := g.idr, odr := g.odr, odrOld := g.odrOld, out := g.out, place := g.place })
    (h : writeGpio k s f = .next t) : Effect s i t := by
  cases hg : s.gpios[k]? with
  | some g =>
    rw [writeGpio_of_some hg] at h
    cases h
    exact .configured k g (f g) hg (hf g)
  | none => simp [writeGpio, State.onGpio, hg] at h

/-- A write of ODR or BSRR. -/
theorem writeOutput_effect {f : Gpio → Gpio}
    (hf : ∀ g, f g = { g with odr := (f g).odr, bsr := (f g).bsr })
    (h : writeOutput k s f = .next t) : Effect s i t := by
  cases hg : s.gpios[k]? with
  | some g =>
    obtain ⟨t', e, hd⟩ := writeOutput_driven hg f
    rw [e] at h
    cases h
    exact .driven k g (f g) t' hg (hf g) hd
  | none => simp [writeOutput, State.onGpio, hg] at h

/-- A write of a CSR register. -/
theorem writeCsr_effect {m : Fin 14} {v : BusVal} (h : writeCsr m k v s = .next t) : Effect s i t := by
  cases hb : s.csrs[k]? with
  | some b =>
    rw [writeCsr_of_some hb] at h
    cases h
    exact .csr k b _ hb rfl
  | none => simp [writeCsr, State.onCsr, hb] at h

/-- An access that is not valid. -/
theorem invalidAccess_effect {kind : AccessKind} {dev : DevRef} {off : BitVec 16}
    (h : invalidAccess kind dev off s = .next t) : Effect s i t := by
  obtain ⟨_, e⟩ | ⟨_, e⟩ := invalidAccess_cases kind dev off s
  · rw [e] at h; cases h; exact .faulted dev off kind
  · rw [e] at h; cases h

/-- RESET.GPIO. -/
theorem execResetGpio_effect (h : execResetGpio k s = .next t) : Effect s i t := by
  cases hg : s.gpios[k]? with
  | some g =>
    rw [execResetGpio, State.onGpio_of_some hg, State.modifyGpio_of_some hg] at h
    cases h
    exact .gpioReset k g hg
  | none => simp [execResetGpio, State.onGpio, hg] at h

/-- RESET.CSR. -/
theorem execResetCsr_effect (h : execResetCsr k s = .next t) : Effect s i t := by
  cases hb : s.csrs[k]? with
  | some b =>
    rw [execResetCsr, State.onCsr_of_some hb, State.modifyCsr_of_some hb] at h
    cases h
    exact .csr k b _ hb rfl
  | none => simp [execResetCsr, State.onCsr, hb] at h

/-- RESET.BUTTON. -/
theorem execResetButton_effect (h : execResetButton k s = .next t) : Effect s i t := by
  cases hu : s.buttons[k]? with
  | some u =>
    rw [execResetButton, State.onButton_of_some hu, State.modifyButton_of_some hu] at h
    cases h
    exact .button k u false hu
  | none => simp [execResetButton, State.onButton, hu] at h

/-- RESET.LED. -/
theorem execResetLed_effect (h : execResetLed k s = .next t) : Effect s i t := by
  cases hl : s.leds[k]? with
  | some l =>
    rw [execResetLed, State.onLed_of_some hl, State.modifyLed_of_some hl] at h
    cases h
    exact .led k l _ hl rfl List.prefix_rfl
  | none => simp [execResetLed, State.onLed, hl] at h

/-- PIN_IN.GPIO. -/
theorem execPinInGpio_effect {pin : Fin 16} {b : Bool} (h : execPinInGpio k pin b s = .next t) :
    Effect s i t := by
  cases hg : s.gpios[k]? with
  | some g =>
    rw [execPinInGpio, State.onGpio_of_some hg, State.deliver, State.modifyGpio_of_some hg] at h
    cases h
    exact .sampled k g pin b hg
  | none => simp [execPinInGpio, State.onGpio, hg] at h

/-- PIN_IN.LED. -/
theorem execPinInLed_effect {b : Bool} (h : execPinInLed k b s = .next t) : Effect s i t := by
  cases hl : s.leds[k]? with
  | some l =>
    rw [execPinInLed, State.onLed_of_some hl, State.deliver, State.modifyLed_of_some hl] at h
    cases h
    exact .led k l _ hl rfl (List.prefix_append ..)
  | none => simp [execPinInLed, State.onLed, hl] at h

/-- CONNECT.GPIO. -/
theorem execConnectGpio_effect {p : Fin 64} {sink : Sink} (h : execConnectGpio k p sink s = .next t) :
    Effect s i t := by
  cases hg : s.gpios[k]? with
  | some g =>
    rw [execConnectGpio_of_some hg] at h
    by_cases hs : s.hasDevice (sinkDev sink) = true
    · rw [if_pos hs] at h
      cases h
      exact .gpioConnected k g p sink hg hs
    · rw [if_neg hs] at h
      cases h
  | none => simp [execConnectGpio, State.onGpio, hg] at h

/-- CONNECT.BUTTON. -/
theorem execConnectButton_effect {sink : Sink} (h : execConnectButton k sink s = .next t) :
    Effect s i t := by
  cases hu : s.buttons[k]? with
  | some u =>
    rw [execConnectButton_of_some hu] at h
    by_cases hs : s.hasDevice (sinkDev sink) = true
    · rw [if_pos hs] at h
      cases h
      exact .buttonConnected k u sink hu hs
    · rw [if_neg hs] at h
      cases h
  | none => simp [execConnectButton, State.onButton, hu] at h

/-- BYTE_IN.BUTTON. -/
theorem execByteInButton_effect {x : Byte} (h : execByteInButton k x s = .next t) : Effect s i t := by
  cases hu : s.buttons[k]? with
  | some u =>
    obtain ⟨t', e, hd⟩ := execByteInButton_driven hu x
    rw [e] at h
    cases h
    exact .byteIn k u _ t' hu hd
  | none => simp [execByteInButton, State.onButton, hu] at h

/-- SAVE. -/
theorem execSave_effect {dev : DevRef} (h : execSave dev s = .next t) : Effect s i t := by
  obtain ⟨c, k⟩ := dev
  cases c with
  | gpio =>
    cases hg : s.gpios[k]? with
    | some g => simp only [execSave, State.onGpio_of_some hg] at h; cases h; exact .answered _
    | none => simp [execSave, State.onGpio, hg] at h
  | csr =>
    cases hg : s.csrs[k]? with
    | some g => simp only [execSave, State.onCsr_of_some hg] at h; cases h; exact .answered _
    | none => simp [execSave, State.onCsr, hg] at h
  | button =>
    cases hg : s.buttons[k]? with
    | some g => simp only [execSave, State.onButton_of_some hg] at h; cases h; exact .answered _
    | none => simp [execSave, State.onButton, hg] at h
  | led =>
    cases hg : s.leds[k]? with
    | some g => simp only [execSave, State.onLed_of_some hg] at h; cases h; exact .answered _
    | none => simp [execSave, State.onLed, hg] at h

/-- RESTORE. -/
theorem execRestore_effect {dev : DevRef} {fields : Record} (h : execRestore dev fields s = .next t) :
    Effect s (.restore dev fields) t := by
  obtain ⟨c, k⟩ := dev
  cases c with
  | gpio =>
    cases hg : s.gpios[k]? with
    | some g =>
      simp only [execRestore, State.onGpio_of_some hg] at h
      cases hr : Gpio.restore s.cfg fields g with
      | some g' =>
        rw [hr, Option.map_some, State.modifyGpio_of_some hg] at h
        cases h
        exact .gpioRestored k fields g g' rfl hg hr
      | none => rw [hr] at h; cases h
    | none => simp [execRestore, State.onGpio, hg] at h
  | csr =>
    cases hb : s.csrs[k]? with
    | some b =>
      simp only [execRestore, State.onCsr_of_some hb] at h
      cases hr : CsrBank.restore s.cfg fields b with
      | some b' =>
        rw [hr, Option.map_some, State.modifyCsr_of_some hb] at h
        cases h
        exact .csr k b b' hb (CsrBank.restore_keeps hr)
      | none => rw [hr] at h; cases h
    | none => simp [execRestore, State.onCsr, hb] at h
  | button =>
    cases hu : s.buttons[k]? with
    | some u =>
      simp only [execRestore, State.onButton_of_some hu, Button.restore] at h
      cases hr : restoreLevel s.cfg .button fields u.lastLevel with
      | some b =>
        rw [hr, Option.map_some, Option.map_some, State.modifyButton_of_some hu] at h
        cases h
        exact .button k u b hu
      | none => rw [hr] at h; cases h
    | none => simp [execRestore, State.onButton, hu] at h
  | led =>
    cases hl : s.leds[k]? with
    | some l =>
      simp only [execRestore, State.onLed_of_some hl, Led.restore] at h
      cases hr : restoreLevel s.cfg .led fields l.lastLevel with
      | some b =>
        rw [hr, Option.map_some, Option.map_some, State.modifyLed_of_some hl] at h
        cases h
        exact .led k l _ hl rfl List.prefix_rfl
      | none => rw [hr] at h; cases h
    | none => simp [execRestore, State.onLed, hl] at h

/-- What a request can do: if exec answers a next state, it is one of the effects. -/
theorem exec_effect (h : exec i s = .next t) : Effect s i t := by
  cases i
  case busBadwidth => exact invalidAccess_effect h
  case busInvalidOffset => exact invalidAccess_effect h
  case gpioWrMode => exact writeGpio_effect (fun _ => rfl) h
  case gpioWrOtype => exact writeGpio_effect (fun _ => rfl) h
  case gpioWrOspeed => exact writeGpio_effect (fun _ => rfl) h
  case gpioWrPupd => exact writeGpio_effect (fun _ => rfl) h
  case gpioWrLck => exact writeGpio_effect (fun _ => rfl) h
  case gpioWrAfrl => exact writeGpio_effect (fun _ => rfl) h
  case gpioWrAfrh => exact writeGpio_effect (fun _ => rfl) h
  case gpioWrOdr => exact writeOutput_effect (fun _ => rfl) h
  case gpioWrBsrr => exact writeOutput_effect (fun _ => rfl) h
  case gpioWrIdr k v =>
    cases hg : s.gpios[k]? with
    | some g =>
      rw [exec, execGpioWrIdr, State.onGpio_of_some hg] at h
      cases h
      exact .answered _
    | none => simp [exec, execGpioWrIdr, State.onGpio, hg] at h
  case resetGpio => exact execResetGpio_effect h
  case resetCsr => exact execResetCsr_effect h
  case resetButton => exact execResetButton_effect h
  case resetLed => exact execResetLed_effect h
  case pinInGpio => exact execPinInGpio_effect h
  case pinInLed => exact execPinInLed_effect h
  case connectGpio => exact execConnectGpio_effect h
  case connectButton => exact execConnectButton_effect h
  case byteInButton => exact execByteInButton_effect h
  case save => exact execSave_effect h
  case restore => exact execRestore_effect h
  all_goals first
    | exact readGpio_effect h
    | exact readCsr_effect h
    | exact writeCsr_effect h

/-- What a step can do: it idles, or it performs the oldest request with one of the effects. -/
theorem step_cases (h : step s = .next t) :
    (s.pending = [] ∧ t = s) ∨
    ∃ r rest i, s.pending = r :: rest ∧ decode r = .ok i ∧ Effect { s with pending := rest } i t := by
  unfold step at h
  by_cases hh : s.halted = true
  · rw [if_pos hh] at h; cases h
  · rw [if_neg hh] at h
    unfold State.fetch at h
    cases hp : s.pending with
    | nil => rw [hp] at h; cases h; exact .inl ⟨rfl, rfl⟩
    | cons r rest =>
      rw [hp] at h
      cases hd : decode r with
      | ok i =>
        simp only [hd] at h
        exact .inr ⟨r, rest, i, rfl, hd, exec_effect h⟩
      | error e => simp only [hd] at h; cases h

end Sys2Proof.Machine
end

