-- ==== Sys2Proof/Tests/Slice0.lean ====
section
/-! SUPPORT. Tests: ill-formed terms that the checks refuse, words written out from spec/30_encoding.md
R54 and R59 that decode to the requests they stand for, one step of each request with the results that
spec/95_test_vectors.md gives, and for every statement with hypotheses a state and operands that meet
them. -/

namespace Sys2Proof.Tests

open Sys2Proof.Machine Sys2Proof.Config Sys2Proof.Claims

/-! ### Well-formedness (R58) -/

/-- Step 2 before step 3: a Button has no BUS.BADWIDTH. -/
theorem test_badwidth_on_a_button_is_ill_formed :
    (Instr.busBadwidth .read ⟨.button, 0⟩ 0#16).wellFormed = false := by decide

theorem test_badwidth_on_an_led_is_ill_formed :
    (Instr.busBadwidth .write ⟨.led, 0⟩ 0#16).wellFormed = false := by decide

/-- Step 4: a defined register is no BUS.INVALID_OFFSET. -/
theorem test_invalid_offset_at_a_defined_register_is_ill_formed :
    (Instr.busInvalidOffset .read 2#2 ⟨.csr, 0⟩ 0x34#16).wellFormed = false := by decide

/-- Step 3: width code 11 on a GPIO controller is BUS.BADWIDTH. -/
theorem test_invalid_offset_with_a_bad_width_is_ill_formed :
    (Instr.busInvalidOffset .read 3#2 ⟨.gpio, 0⟩ 0x28#16).wellFormed = false := by decide

theorem test_invalid_offset_on_a_button_is_well_formed :
    (Instr.busInvalidOffset .read 3#2 ⟨.button, 0⟩ 0#16).wellFormed = true := by decide

/-! ### Decoding (R54, R59; 95_test_vectors.md V-ENC) -/

/-- K = 0, C = 00: the ten registers in offset order, with widths 4, 2 and 1 in turn. -/
theorem test_decode_gpio_reads :
    [0x08000000, 0x04000004, 0x00000008, 0x0800000C, 0x04000010, 0x00000014, 0x08000018,
     0x0400001C, 0x00000020, 0x08000024].map (decodeTableWord 32) =
      [some (.gpioRdMode 0 .w4), some (.gpioRdOtype 0 .w2), some (.gpioRdOspeed 0 .w1),
       some (.gpioRdPupd 0 .w4), some (.gpioRdIdr 0 .w2), some (.gpioRdOdr 0 .w1),
       some (.gpioRdBsrr 0 .w4), some (.gpioRdLck 0 .w2), some (.gpioRdAfrl 0 .w1),
       some (.gpioRdAfrh 0 .w4)] := by decide

/-- K = 1, C = 00: the ten registers in offset order, with widths 4, 2 and 1 in turn. -/
theorem test_decode_gpio_writes :
    [0x18000000, 0x14000004, 0x10000008, 0x1800000C, 0x14000010, 0x10000014, 0x18000018,
     0x1400001C, 0x10000020, 0x18000024].map (decodeTableWord 32) =
      [some (.gpioWrMode 0 (.b32 0#32)), some (.gpioWrOtype 0 (.b16 0#16)),
       some (.gpioWrOspeed 0 (.b8 0#8)), some (.gpioWrPupd 0 (.b32 0#32)),
       some (.gpioWrIdr 0 (.b16 0#16)), some (.gpioWrOdr 0 (.b8 0#8)),
       some (.gpioWrBsrr 0 (.b32 0#32)), some (.gpioWrLck 0 (.b16 0#16)),
       some (.gpioWrAfrl 0 (.b8 0#8)), some (.gpioWrAfrh 0 (.b32 0#32))] := by decide

/-- K = 0, C = 01: `R[m]` at `A = 4m`. -/
theorem test_decode_csr_reads :
    [0x09000000, 0x05000004, 0x01000008, 0x0900000C, 0x05000010, 0x01000014, 0x09000018,
     0x0500001C, 0x01000020, 0x09000024, 0x05000028, 0x0100002C, 0x09000030, 0x05000034].map (decodeTableWord 32) =
      [some (.csrRdReg0 0 .w4), some (.csrRdReg1 0 .w2), some (.csrRdReg2 0 .w1),
       some (.csrRdReg3 0 .w4), some (.csrRdReg4 0 .w2), some (.csrRdReg5 0 .w1),
       some (.csrRdReg6 0 .w4), some (.csrRdReg7 0 .w2), some (.csrRdReg8 0 .w1),
       some (.csrRdReg9 0 .w4), some (.csrRdReg10 0 .w2), some (.csrRdReg11 0 .w1),
       some (.csrRdReg12 0 .w4), some (.csrRdReg13 0 .w2)] := by decide

/-- K = 1, C = 01: `R[m]` at `A = 4m`. -/
theorem test_decode_csr_writes :
    [0x19000000, 0x15000004, 0x11000008, 0x1900000C, 0x15000010, 0x11000014, 0x19000018,
     0x1500001C, 0x11000020, 0x19000024, 0x15000028, 0x1100002C, 0x19000030, 0x15000034].map (decodeTableWord 32) =
      [some (.csrWrReg0 0 (.b32 0#32)), some (.csrWrReg1 0 (.b16 0#16)),
       some (.csrWrReg2 0 (.b8 0#8)), some (.csrWrReg3 0 (.b32 0#32)),
       some (.csrWrReg4 0 (.b16 0#16)), some (.csrWrReg5 0 (.b8 0#8)),
       some (.csrWrReg6 0 (.b32 0#32)), some (.csrWrReg7 0 (.b16 0#16)),
       some (.csrWrReg8 0 (.b8 0#8)), some (.csrWrReg9 0 (.b32 0#32)),
       some (.csrWrReg10 0 (.b16 0#16)), some (.csrWrReg11 0 (.b8 0#8)),
       some (.csrWrReg12 0 (.b32 0#32)), some (.csrWrReg13 0 (.b16 0#16))] := by decide

/-- The bus accesses that fault (R58 steps 2, 3 and 5). -/
theorem test_decode_bus_faults :
    [0x1C000018, 0x0D000034, 0x08000028, 0x08000016, 0x09000038, 0x0A000000, 0x1B000000,
     0x0E000000].map (decodeTableWord 32) =
      [some (.busBadwidth .write ⟨.gpio, 0⟩ 0x18#16),
       some (.busBadwidth .read ⟨.csr, 0⟩ 0x34#16),
       some (.busInvalidOffset .read 2#2 ⟨.gpio, 0⟩ 0x28#16),
       some (.busInvalidOffset .read 2#2 ⟨.gpio, 0⟩ 0x16#16),
       some (.busInvalidOffset .read 2#2 ⟨.csr, 0⟩ 0x38#16),
       some (.busInvalidOffset .read 2#2 ⟨.button, 0⟩ 0#16),
       some (.busInvalidOffset .write 2#2 ⟨.led, 0⟩ 0#16),
       some (.busInvalidOffset .read 3#2 ⟨.button, 0⟩ 0#16)] := by decide

/-- The kinds 2 to 7. -/
theorem test_decode_control :
    [0x20000000, 0x21000000, 0x22000000, 0x23000000, 0x3000000F, 0x33000000, 0x4000003F,
     0x42000000, 0x52000000, 0x60000000, 0x61000000, 0x73000000, 0x72000000].map (decodeTableWord 32) =
      [some (.resetGpio 0), some (.resetCsr 0), some (.resetButton 0), some (.resetLed 0),
       some (.pinInGpio 0 15 false), some (.pinInLed 0 false),
       some (.connectGpio 0 63 (.gpio 0 0)), some (.connectButton 0 (.gpio 0 0)),
       some (.byteInButton 0 0#8), some (.save ⟨.gpio, 0⟩), some (.save ⟨.csr, 0⟩),
       some (.restore ⟨.led, 0⟩ [⟨.lastLevel, 8, 0#8⟩]),
       some (.restore ⟨.button, 0⟩ [⟨.lastLevel, 8, 0#8⟩])] := by decide

/-- Refused descriptors (R60). -/
theorem test_decode_refusals :
    [0x08010014, 0x80000000, 0xF0000000, 0x24000000, 0x20000001, 0x30000010, 0x31000000,
     0x32000000, 0x33000001, 0x40000040, 0x41000000, 0x43000000, 0x50000000, 0x62000001,
     0x70800000].map (decodeTableWord 32) =
      [none, none, none, none, none, none, none, none, none, none, none, none, none, none, none] := by decide
/-! ### One step of each request -/

/-- A request with its descriptor word and its target. -/
def req (w : Nat) (dev : DevRef) : Request := { Request.ofWord 8 (BitVec.ofNat 32 w) with dev := dev }

/-- A bus write of `v`. -/
def wr (w : Nat) (dev : DevRef) (v : Word) : Request := { req w dev with value := v }

/-- The state after one request. -/
def run (s : State) (r : Request) : Option State := nextOf (step (s.present r))

/-- What the request answers. -/
def answer (s : State) (r : Request) : Option Reply := (run s r).map (·.reply)

/-- What a controller holds after the request. -/
def gpioAfter {α : Type} (s : State) (r : Request) (k : Nat) (f : Gpio → α) : Option α :=
  (run s r).bind fun t => t.gpios[k]?.map f

/-- What LED `k` has emitted after the request. -/
def ledAfter (s : State) (r : Request) (k : Nat) : Option (List Byte) :=
  (run s r).bind fun t => t.leds[k]?.map (·.out)

abbrev gpioA : DevRef := ⟨.gpio, 0⟩
abbrev gpioB : DevRef := ⟨.gpio, 1⟩
abbrev rcc : DevRef := ⟨.csr, 0⟩
abbrev btn : DevRef := ⟨.button, 0⟩
abbrev ledB : DevRef := ⟨.led, 0⟩
abbrev ledG : DevRef := ⟨.led, 1⟩

/-- The board after reset with GPIOB changed. -/
def board (f : Gpio → Gpio) : State := State.reset.modifyGpio 1 f

/-- The same under NARROW_WRITE = MERGE. -/
def merging (s : State) : State := { s with cfg := { s.cfg with narrowWrite := .merge } }

/-- The board with GPIOA changed. -/
def boardA (f : Gpio → Gpio) : State := State.reset.modifyGpio 0 f

/-- A controller whose registers all differ. -/
def sampleRegs (g : Gpio) : Gpio :=
  { g with
    mode := 0x5555AAAA#32, otype := 0x01020304#32, ospeed := 0x11121314#32, pupd := 0x21222324#32
    idr := 0x31323334#32, odr := 0x41424344#32, odrOld := 0x41424344#32, bsr := 0x51525354#32
    lck := 0x00010001#32, afrl := 0x77000000#32, afrh := 0x81828384#32 }

/-- Reads of 4 bytes (R64 to R84; V-CFG, V-BSRR): BSRR answers 0. -/
theorem test_gpio_reads_of_4_bytes :
    [0x08000000, 0x08000004, 0x08000008, 0x0800000C, 0x08000010, 0x08000014, 0x08000018, 0x0800001C,
     0x08000020, 0x08000024].map (fun w => answer (board sampleRegs) (req w gpioB)) =
    [0x5555AAAA#32, 0x01020304#32, 0x11121314#32, 0x21222324#32, 0x31323334#32, 0x41424344#32, 0#32,
     0x00010001#32, 0x77000000#32, 0x81828384#32].map (fun v => some (.value (.b32 v))) := by decide

/-- Narrow reads answer the low bytes (R43, R44; V-CFG). -/
theorem test_gpio_narrow_reads :
    answer (board sampleRegs) (req 0x04000000 gpioB) = some (.value (.b16 0xAAAA#16)) ∧
    answer (board sampleRegs) (req 0x00000000 gpioB) = some (.value (.b8 0xAA#8)) ∧
    answer (board sampleRegs) (req 0x00000018 gpioB) = some (.value (.b8 0#8)) := by decide

/-- V-CFG: a 1-byte write of MODE. -/
theorem test_mode_narrow_write :
    gpioAfter (board fun g => { g with mode := 0xFFFFFFFF#32 }) (wr 0x10000000 gpioB 0x01#32) 1 (·.mode)
      = some 0x00000001#32 ∧
    gpioAfter (merging (board fun g => { g with mode := 0xFFFFFFFF#32 })) (wr 0x10000000 gpioB 0x01#32)
      1 (·.mode) = some 0xFFFFFF01#32 := by decide

/-- V-CFG, R137: switching a pin with ODR = 1 to output drives nothing. -/
theorem test_mode_write_drives_nothing :
    ledAfter (board fun g => { g with mode := 0#32, odr := 0x40#32, odrOld := 0x40#32 })
      (wr 0x18000000 gpioB 0x1000#32) 0 = some [] := by decide

/-- V-CFG: a 2-byte write of PUPD. -/
theorem test_pupd_narrow_write :
    gpioAfter (board fun g => { g with pupd := 0xFFFFFFFF#32 }) (wr 0x1400000C gpioB 0x1234#32) 1 (·.pupd)
      = some 0x00001234#32 ∧
    gpioAfter (merging (board fun g => { g with pupd := 0xFFFFFFFF#32 })) (wr 0x1400000C gpioB 0x1234#32)
      1 (·.pupd) = some 0xFFFF1234#32 := by decide

/-- V-CFG: OTYPE, OSPEED, LCK, AFRL store every bit. -/
theorem test_plain_registers_store :
    gpioAfter State.reset (wr 0x18000004 gpioB 0xFFFFFFFF#32) 1 (·.otype) = some 0xFFFFFFFF#32 ∧
    gpioAfter State.reset (wr 0x18000008 gpioB 0xFFFFFFFF#32) 1 (·.ospeed) = some 0xFFFFFFFF#32 ∧
    gpioAfter State.reset (wr 0x1800001C gpioB 0x0001FFFF#32) 1 (·.lck) = some 0x0001FFFF#32 ∧
    gpioAfter State.reset (wr 0x18000020 gpioB 0x0F000000#32) 1 (·.afrl) = some 0x0F000000#32 := by
  decide

/-- V-CFG: a 2-byte write of AFRH. -/
theorem test_afrh_narrow_write :
    gpioAfter (board fun g => { g with afrh := 0xFFFFFFFF#32 }) (wr 0x14000024 gpioB 0x1234#32) 1 (·.afrh)
      = some 0x00001234#32 := by decide

/-- V-CFG: nothing is locked. -/
theorem test_lck_locks_nothing :
    gpioAfter (board fun g => { g with lck := 0x0001FFFF#32 }) (wr 0x18000000 gpioB 0x5555#32) 1 (·.mode)
      = some 0x00005555#32 := by decide

/-- R81: a write of IDR is Done and ignored. -/
theorem test_idr_write_is_ignored :
    gpioAfter (board fun g => { g with idr := 0x2#32 }) (wr 0x18000010 gpioB 0xFFFF#32) 1 (·.idr)
      = some 0x2#32 ∧
    answer State.reset (wr 0x18000010 gpioB 0xFFFF#32) = some .done := by decide

/-- V-ODR 1: pins 6 and 7 drive 1. -/
theorem test_odr_write_drives_two_leds :
    ledAfter (board fun g => { g with mode := 0x5000#32 }) (wr 0x18000014 gpioB 0xC0#32) 0 = some [0x01#8] ∧
    ledAfter (board fun g => { g with mode := 0x5000#32 }) (wr 0x18000014 gpioB 0xC0#32) 1 = some [0x01#8] ∧
    gpioAfter (board fun g => { g with mode := 0x5000#32 }) (wr 0x18000014 gpioB 0xC0#32) 1 (·.odrOld)
      = some 0xC0#32 := by decide

/-- P3 2: a masked pin's change is consumed. -/
theorem test_odr_write_masked_pin :
    ledAfter (board fun g => { g with mode := 0x4000#32 }) (wr 0x18000014 gpioB 0xC0#32) 0 = some [] ∧
    ledAfter (board fun g => { g with mode := 0x4000#32 }) (wr 0x18000014 gpioB 0xC0#32) 1 = some [0x01#8] := by
  decide

/-- V-BSRR: the clear wins. -/
theorem test_bsrr_reset_wins :
    gpioAfter (board fun g => { g with odr := 0x000100C0#32, odrOld := 0x000100C0#32 })
      (wr 0x18000018 gpioB 0x00400040#32) 1 (fun g => (g.odr, g.bsr))
      = some (0x00010080#32, 0x00400040#32) := by decide

/-- V-BSRR: BSRR is never merged and a 1-byte write only sets. -/
theorem test_bsrr_is_never_merged :
    gpioAfter (merging (board fun g => { g with
        odr := 0xFFFFFF0F#32, odrOld := 0xFFFFFF0F#32, bsr := 0xFFFFFFFF#32 })) (wr 0x10000018 gpioB 0x80#32) 1 (fun g => (g.odr, g.bsr))
      = some (0xFFFFFF8F#32, 0x00000080#32) := by decide

/-- A bank whose registers all differ. -/
def sampleBank : State :=
  { State.reset with
    csrs := [⟨#v[0#32, 1#32, 2#32, 3#32, 4#32, 5#32, 6#32, 7#32, 8#32, 9#32, 0x0101903F#32, 11#32, 12#32,
      13#32], placeRcc⟩] }

/-- R88: each read answers its own register. -/
theorem test_csr_reads :
    [0x09000000, 0x09000004, 0x09000008, 0x0900000C, 0x09000010, 0x09000014, 0x09000018, 0x0900001C,
     0x09000020, 0x09000024, 0x09000028, 0x0900002C, 0x09000030, 0x09000034].map
        (fun w => answer sampleBank (req w rcc)) =
    [0#32, 1#32, 2#32, 3#32, 4#32, 5#32, 6#32, 7#32, 8#32, 9#32, 0x0101903F#32, 11#32, 12#32, 13#32].map
        (fun v => some (.value (.b32 v))) := by decide

/-- V-CSR: narrow reads of AHBLPENR. -/
theorem test_csr_narrow_reads :
    answer sampleBank (req 0x05000028 rcc) = some (.value (.b16 0x903F#16)) ∧
    answer sampleBank (req 0x01000028 rcc) = some (.value (.b8 0x3F#8)) := by decide

/-- The bank after the request. -/
def csrAfter (s : State) (r : Request) : Option (List Word) :=
  (run s r).bind fun t => t.csrs[0]?.map (·.regs.toList)

/-- R89: each write stores in its own register and in no other (a bank of zeros). -/
theorem test_csr_writes :
    [0x19000000, 0x19000004, 0x19000008, 0x1900000C, 0x19000010, 0x19000014, 0x19000018, 0x1900001C,
     0x19000020, 0x19000024, 0x19000028, 0x1900002C, 0x19000030, 0x19000034].map
        (fun w => csrAfter { State.reset with csrs := [⟨Vector.replicate 14 0#32, placeRcc⟩] }
          (wr w rcc 0x12345678#32)) =
    (List.range 14).map fun m =>
      some (List.replicate m 0#32 ++ [0x12345678#32] ++ List.replicate (13 - m) 0#32) := by decide

/-- V-CSR: a 2-byte write of R[10]. -/
theorem test_csr_narrow_write :
    (csrAfter sampleBank (wr 0x15000028 rcc 0xFFFF#32)).map (·.getD 10 0#32) = some 0x0000FFFF#32 ∧
    (csrAfter (merging sampleBank) (wr 0x15000028 rcc 0xFFFF#32)).map (·.getD 10 0#32)
      = some 0x0101FFFF#32 := by decide

/-- V-FLT: width code 11. -/
theorem test_badwidth_faults :
    (run State.reset (req 0x0C000000 gpioB)).map (·.faults) = some [⟨gpioB, 0x00#16, .read⟩] ∧
    answer State.reset (req 0x0C000000 gpioB) = some (.fault ⟨gpioB, 0x00#16, .read⟩) := by decide

/-- V-FLT: an undefined and an unaligned offset, a Button and an LED. -/
theorem test_invalid_offset_faults :
    [wr 0x18000028 gpioB 1#32, wr 0x14000016 gpioB 0xFFFF#32, req 0x0A000000 btn, wr 0x13000000 ledG 1#32].map
        (fun r => (run State.reset r).map (·.faults)) =
    [some [⟨gpioB, 0x28#16, .write⟩], some [⟨gpioB, 0x16#16, .write⟩], some [⟨btn, 0x00#16, .read⟩],
     some [⟨ledG, 0x00#16, .write⟩]] := by decide

/-- V-RST: a GPIO reset clears ODR and leaves the wire at level 1. -/
theorem test_reset_gpio :
    gpioAfter (board fun g => { g with
        mode := 0x1000#32, odr := 0x40#32, odrOld := 0x40#32, idr := 0x2#32, lck := 5#32, bsr := 0x40#32
        out := g.out.set 6 (some ⟨true, [.led 0]⟩) }) (req 0x20000000 gpioB) 1
      (fun g => ([g.odr, g.odrOld, g.idr, g.lck, g.bsr], g.out[6]))
      = some ([0#32, 0#32, 0#32, 0#32, 0#32], some ⟨true, [.led 0]⟩) := by decide

/-- V-CSR: AHBLPENR after reset. -/
theorem test_reset_csr :
    (csrAfter { State.reset with csrs := [⟨Vector.replicate 14 0xFFFFFFFF#32, placeRcc⟩] }
      (req 0x21000000 rcc)).map (·.getD 10 0#32) = some 0x0101903F#32 := by decide

/-- V-RST: a Button reset leaves the wire. -/
theorem test_reset_button :
    (run { State.reset with buttons := [⟨true, some ⟨true, [.gpio 0 1]⟩, placeNone⟩] }
      (req 0x22000000 btn)).map (·.buttons) =
      some [⟨false, some ⟨true, [.gpio 0 1]⟩, placeNone⟩] := by decide

/-- V-RST: an LED reset leaves the stream. -/
theorem test_reset_led :
    (run { State.reset with leds := [⟨true, [0x01#8], placeNone⟩, ⟨true, [], placeNone⟩] }
      (req 0x23000000 ledB)).map (·.leds) =
      some [⟨false, [0x01#8], placeNone⟩, ⟨true, [], placeNone⟩] := by decide

/-- V-IN: the gate open, and shut by an output mode. -/
theorem test_pin_in_gpio :
    gpioAfter (boardA fun g => { g with mode := 0#32, pupd := 0x44#32, idr := 0x8#32 })
      { req 0x30000001 gpioA with level := 1 } 0 (·.idr) = some 0xA#32 ∧
    gpioAfter (boardA fun g => { g with mode := 0x8#32, pupd := 0x4#32, idr := 0#32 })
      { req 0x30000001 gpioA with level := 1 } 0 (·.idr) = some 0#32 := by decide

/-- V-IN with D9: any non-zero level is 1; pin 15; level 0 clears. -/
theorem test_pin_in_gpio_levels :
    gpioAfter (boardA fun g => { g with mode := 0#32, pupd := 0xC0000000#32, idr := 0#32 })
      { req 0x3000000F gpioA with level := -3 } 0 (·.idr) = some 0x8000#32 ∧
    gpioAfter (boardA fun g => { g with mode := 0#32, pupd := 0x4#32, idr := 0x2#32 })
      { req 0x30000001 gpioA with level := 0 } 0 (·.idr) = some 0#32 := by decide

/-- V-PW 8: an LED emits on every delivery. -/
theorem test_pin_in_led :
    ledAfter { State.reset with leds := [⟨true, [0x01#8], placeNone⟩] }
      { req 0x33000000 ledB with level := 1 } 0 = some [0x01#8, 0x01#8] := by decide

/-- V-PW 3, 4: a second registration goes last, and no level is delivered. -/
theorem test_connect_gpio :
    gpioAfter State.reset { req 0x40000006 gpioB with sink := ledG } 1 (fun g => (g.out[6], g.out[5]))
      = some (some ⟨false, [.led 0, .led 1]⟩, none) ∧
    gpioAfter State.reset { req 0x40000005 gpioB with sink := ledG } 1 (·.out[5])
      = some (some ⟨false, [.led 1]⟩) := by decide

/-- V-SRC-6: the Button's wire with a second subscriber. -/
theorem test_connect_button :
    (run State.reset { req 0x42000000 btn with sink := ledB }).map (·.buttons) =
      some [⟨false, some ⟨false, [.gpio 0 1, .led 0]⟩, placeNone⟩] := by decide

/-- V-SRC-8: a byte sets IDR bit 1 of GPIOA. -/
theorem test_byte_in_button :
    gpioAfter (boardA fun g => { g with mode := 0#32, pupd := 0x4#32 })
      { req 0x52000000 btn with byte := 0x05#8 } 0 (·.idr) = some 0x2#32 ∧
    (run State.reset { req 0x52000000 btn with byte := 0x05#8 }).map (·.buttons) =
      some [⟨true, some ⟨true, [.gpio 0 1]⟩, placeNone⟩] := by decide

/-- V-PW 7: a Button with no wire. -/
theorem test_byte_in_unwired_button :
    (run { State.reset with buttons := [⟨false, none, placeNone⟩] }
      { req 0x52000000 btn with byte := 0xFF#8 }).map (·.buttons) =
      some [⟨true, none, placeNone⟩] := by decide

/-- V-SNAP 1: the record of GPIOB at the end of P1. -/
theorem test_save_gpio :
    answer (board fun g => { g with
        mode := 0x1000#32, ospeed := 7#32, pupd := 9#32, bsr := 0x00400000#32 }) (req 0x60000000 gpioB) =
      some (.saved [⟨.mode, 32, 0x1000#32⟩, ⟨.otype, 32, 0#32⟩, ⟨.ospeed, 32, 7#32⟩, ⟨.pupd, 32, 9#32⟩,
        ⟨.idr, 32, 0#32⟩, ⟨.odr, 32, 0#32⟩, ⟨.odr_old, 32, 0#32⟩, ⟨.bsr, 32, 0x00400000#32⟩,
        ⟨.lck, 32, 0#32⟩, ⟨.afrl, 32, 0#32⟩, ⟨.afrh, 32, 0#32⟩]) := by decide

/-- V-SNAP 3: a restored `odr_old` may differ from `odr`, and nothing is emitted. -/
theorem test_restore_gpio :
    gpioAfter State.reset
        { req 0x70000000 gpioB with
          fields := [⟨.mode, 32, 0x1000#32⟩, ⟨.otype, 32, 0#32⟩, ⟨.ospeed, 32, 0#32⟩, ⟨.pupd, 32, 0#32⟩,
            ⟨.idr, 32, 0x30000#32⟩, ⟨.odr, 32, 0x40#32⟩, ⟨.odr_old, 32, 0#32⟩, ⟨.bsr, 32, 0#32⟩,
            ⟨.lck, 32, 0#32⟩, ⟨.afrl, 32, 0#32⟩, ⟨.afrh, 32, 0#32⟩] } 1
        (fun g => (g.mode, g.idr, g.odr, g.odrOld, g.out[6])) =
      some (0x1000#32, 0x30000#32, 0x40#32, 0#32, some ⟨false, [.led 0]⟩) := by decide

/-- V-SNAP 5 and 6: a level of 5 is 1; a record without it is refused. -/
theorem test_restore_button :
    (run State.reset { req 0x72000000 btn with fields := [⟨.lastLevel, 8, 5#8⟩] }).map (·.buttons) =
      some [⟨true, some ⟨false, [.gpio 0 1]⟩, placeNone⟩] ∧
    step (State.reset.present { req 0x72000000 btn with fields := [] }) = .refused .malformedRecord := by
  constructor
  · decide
  · rfl

/-- R14, R116: no request, and a halted emulation. -/
theorem test_step_idle_and_halted :
    step State.reset = .next State.reset ∧
    step { State.reset with halted := true } = .fault .halted := ⟨rfl, rfl⟩

/-- R40: an address in GPIOB's region, and one in none. -/
theorem test_bus_target :
    State.reset.busTarget 0x40020418 = some (gpioB, 0x18) ∧ State.reset.busTarget 0x40020800 = none := by
  decide

/-- R61: the spec's example line. -/
theorem test_assemble :
    (assemble (.wr .w4 .GPIOB (.gpioReg .BSRR) 0x40#32)).word = 0x18000018#32 ∧
    (assemble (.wr .w4 .GPIOB (.gpioReg .BSRR) 0x40#32)).value = 0x40#32 := by decide

/-! ### States and operands that meet the statements' hypotheses -/

theorem witness_DecodeOfEncodeIsIdentity :
    (Instr.gpioWrOdr 1 (.b16 0xFFFF#16)).wellFormed = true ∧
    (Instr.busBadwidth .read ⟨.csr, 0⟩ 0xFFFF#16).wellFormed = true ∧
    (Instr.busInvalidOffset .write 3#2 ⟨.led, 1⟩ 0#16).wellFormed = true := by decide

theorem witness_DecodedInstructionsAreWellFormed :
    ∃ i, decode (req 0x4000003F gpioB) = .ok i := ⟨_, rfl⟩

theorem witness_DecodedWordsMatchTheirTableRow :
    ∃ i, decode (req 0x19000034 rcc) = .ok i := ⟨_, rfl⟩

theorem witness_EncodeOfDecodeGivesTheWordBack :
    ∃ i, decode (req 0x0E00FFFF btn) = .ok i := ⟨_, rfl⟩

/-- One request for each branch, and both sides of the last CSR offset. -/
theorem witness_BusRequestsAreDecidedInOrder :
    ∀ r ∈ [req 0x0E000000 btn, req 0x0C000000 gpioA, req 0x09000034 rcc, req 0x09000035 rcc,
        req 0x09000038 rcc],
      r.kindBits = AccessKind.read.bits ∧ r.zBits = 0#8 ∧ r.clsBits = r.dev.cls.bits := by decide

/-- One request for each reason, at the end of its range, and one that is not refused. -/
theorem witness_IllegalDescriptorsAreRefused :
    (∀ r ∈ [req 0x80000000 gpioA, req 0x00010000 gpioA, req 0x00000000 rcc, req 0x24000000 gpioA,
        req 0x31000000 rcc, req 0x43000000 ledB, req 0x53000000 ledB, req 0x30000010 gpioA,
        req 0x33000001 ledB, req 0x40000040 gpioA, req 0x42000001 btn, req 0x60000001 gpioA,
        { req 0x40000000 gpioA with sinkPin := 16 }],
      (decode r).toOption = none) ∧
    (decode { req 0x4000003F gpioA with sinkPin := 15 }).toOption = some (.connectGpio 0 63 (.gpio 0 15)) ∧
    (∀ r ∈ [req 0x1C000000 gpioA, req 0x18000002 gpioA, req 0x18000028 gpioA, req 0x1A000000 btn],
      r.kindBits = AccessKind.write.bits ∧ r.zBits = 0#8 ∧ r.clsBits = r.dev.cls.bits ∧
      (r.wcBits = 3#2 ∨ r.argBits.toNat % 4 ≠ 0 ∨ r.argBits ∉ defOffsets r.dev.cls)) := by decide

/-- A halted state, an idle one, one with a request that decodes and one with a request that does not. -/
theorem witness_StepPerformsTheOldestRequest :
    ({ State.reset with halted := true } : State).halted = true ∧
    (State.reset.halted = false ∧ State.reset.pending = []) ∧
    ((State.reset.present (req 0x20000000 gpioB)).halted = false ∧
      (State.reset.present (req 0x20000000 gpioB)).pending = req 0x20000000 gpioB :: [] ∧
      decode (req 0x20000000 gpioB) = .ok (.resetGpio 1)) ∧
    decode (req 0x80000000 gpioB) = .error .reservedKind := by
  refine ⟨rfl, ⟨rfl, rfl⟩, ⟨rfl, rfl, rfl⟩, rfl⟩

/-- Requests of every kind to the board's devices, and one to a device it does not have. -/
theorem witness_RequestsToExistingDevicesComplete :
    (∀ i ∈ [Instr.gpioWrBsrr 1 (.b32 0x40#32), .csrRdReg13 0 .w1, .busInvalidOffset .read 3#2 btn 0#16,
        .connectButton 0 (.led 1), .byteInButton 0 1#8, .save ledG],
      (∀ d ∈ devicesOf i, State.reset.hasDevice d = true) ∧ isRestore i = false) ∧
    State.reset.hasDevice ⟨.gpio, 2⟩ = false := by decide

/-- The first and the last register; a 4-byte and a 1-byte read. -/
theorem witness_GpioReadsReturnTheRegister :
    gpioReads.length = 10 ∧ (∃ g, State.reset.gpios[1]? = some g) ∧
    isBusRead (req 0x08000000 gpioB) .gpio 1 .w4 0x00#16 ∧
    isBusRead (req 0x00000024 gpioB) .gpio 1 .w1 0x24#16 :=
  ⟨rfl, ⟨_, rfl⟩, by unfold isBusRead; decide, by unfold isBusRead; decide⟩

/-- Registers 0 and 13, and the two ways of missing one. -/
theorem witness_CsrReadsReturnTheRegister :
    csrRegs.length = 14 ∧ (∃ b, State.reset.csrs[0]? = some b) ∧
    isBusRead (req 0x09000000 rcc) .csr 0 .w4 (BitVec.ofNat 16 (4 * 0)) ∧
    isBusRead (req 0x05000034 rcc) .csr 0 .w2 (BitVec.ofNat 16 (4 * 13)) ∧
    (isBusRead (req 0x09000038 rcc) .csr 0 .w4 0x38#16 ∧ 0x34 < (0x38#16).toNat) ∧
    (isBusRead (req 0x09000033 rcc) .csr 0 .w4 0x33#16 ∧ (0x33#16).toNat % 4 ≠ 0) := by
  refine ⟨rfl, ⟨_, rfl⟩, ?_⟩
  unfold isBusRead
  decide

/-- The last byte of a 4-byte read of AFRH and of `R[13]`, and the only byte of a 1-byte read of MODE and of
`R[0]`. -/
theorem witness_ReadBytesAreLittleEndian :
    (∃ (t : State) (v : BusVal), exec (.gpioRdAfrh 1 .w4) State.reset = .next t ∧ t.reply = .value v) ∧
    (∃ (t : State) (v : BusVal), exec (.gpioRdMode 1 .w1) State.reset = .next t ∧ t.reply = .value v) ∧
    (∃ (t : State) (v : BusVal), exec (.csrRdReg13 0 .w4) State.reset = .next t ∧ t.reply = .value v) ∧
    (∃ (t : State) (v : BusVal), exec (.csrRdReg0 0 .w1) State.reset = .next t ∧ t.reply = .value v) ∧
    3 < Width.w4.bytes ∧ 0 < Width.w1.bytes :=
  ⟨⟨_, _, rfl, rfl⟩, ⟨_, _, rfl, rfl⟩, ⟨_, _, rfl, rfl⟩, ⟨_, _, rfl, rfl⟩, by decide⟩

theorem witness_ConfigurationWritesStoreAndNothingElse :
    (gpioStores.filter fun row => row.off != 0x00#16).length = 6 ∧ (∃ g, State.reset.gpios[1]? = some g) ∧
    isBusWrite (wr 0x14000004 gpioB 0xFFFF1234#32) .gpio 1 (.b16 0x1234#16) 0x04#16 ∧
    isBusWrite (wr 0x18000024 gpioB 0xFFFFFFFF#32) .gpio 1 (.b32 0xFFFFFFFF#32) 0x24#16 := by
  refine ⟨by decide, ⟨_, rfl⟩, ?_⟩
  unfold isBusWrite
  decide

theorem witness_ModeWritesStoreAndNothingElse :
    (∃ g, State.reset.gpios[1]? = some g) ∧
    isBusWrite (wr 0x10000000 gpioB 0x101#32) .gpio 1 (.b8 0x01#8) 0x00#16 :=
  ⟨⟨_, rfl⟩, by unfold isBusWrite; decide⟩

theorem witness_IdrWritesAreIgnored :
    (∃ g, State.reset.gpios[0]? = some g) ∧
    isBusWrite (wr 0x18000010 gpioA 0xFFFF#32) .gpio 0 (.b32 0xFFFF#32) 0x10#16 :=
  ⟨⟨_, rfl⟩, by unfold isBusWrite; decide⟩

theorem witness_CsrWritesStoreOneRegister :
    (∃ b, State.reset.csrs[0]? = some b) ∧
    isBusWrite (wr 0x11000000 rcc 0xFF#32) .csr 0 (.b8 0xFF#8) (BitVec.ofNat 16 (4 * 0)) ∧
    isBusWrite (wr 0x19000034 rcc 1#32) .csr 0 (.b32 1#32) (BitVec.ofNat 16 (4 * 13)) := by
  refine ⟨⟨_, rfl⟩, ?_⟩
  unfold isBusWrite
  decide

theorem witness_OdrWriteRunsTheUpdateAlgorithm :
    (∃ g, State.reset.gpios[1]? = some g) ∧
    isBusWrite (wr 0x18000014 gpioB 0xC0#32) .gpio 1 (.b32 0xC0#32) 0x14#16 :=
  ⟨⟨_, rfl⟩, by unfold isBusWrite; decide⟩

theorem witness_BsrrWriteSetsThenClears :
    (∃ g, State.reset.gpios[1]? = some g) ∧
    isBusWrite (wr 0x14000018 gpioB 0x0040#32) .gpio 1 (.b16 0x0040#16) 0x18#16 :=
  ⟨⟨_, rfl⟩, by unfold isBusWrite; decide⟩

/-- A write of each of the three kinds. -/
theorem witness_RegisterWritesAreIdempotent :
    (isRegisterWrite (.gpioWrBsrr 1 (.b32 0x40#32)) ∧
      ∃ t, exec (.gpioWrBsrr 1 (.b32 0x40#32)) State.reset = .next t) ∧
    (isRegisterWrite (.gpioWrMode 1 (.b8 1#8)) ∧
      ∃ t, exec (.gpioWrMode 1 (.b8 1#8)) State.reset = .next t) ∧
    (isRegisterWrite (.csrWrReg0 0 (.b8 1#8)) ∧
      ∃ t, exec (.csrWrReg0 0 (.b8 1#8)) State.reset = .next t) :=
  ⟨⟨.inr (.inl ⟨1, _, .inr (.inr rfl)⟩), _, rfl⟩,
   ⟨.inl ⟨_, List.mem_cons_self, 1, _, rfl⟩, _, rfl⟩,
   ⟨.inr (.inr ⟨_, List.mem_cons_self, 0, _, rfl⟩), _, rfl⟩⟩

/-- ODR with one byte, and `R[10]` with two. -/
theorem witness_ReadWriteReadRoundTrips :
    (∃ (s1 s2 : State) (v : BusVal), exec (.gpioRdOdr 1 .w1) State.reset = .next s1 ∧
      s1.reply = .value v ∧ exec (.gpioWrOdr 1 v) s1 = .next s2) ∧
    (∃ (s1 s2 : State) (v : BusVal), exec (.csrRdReg10 0 .w2) State.reset = .next s1 ∧
      s1.reply = .value v ∧ exec (.csrWrReg10 0 v) s1 = .next s2) :=
  ⟨⟨_, _, _, rfl, rfl, rfl⟩, ⟨_, _, _, rfl, rfl, rfl⟩⟩

theorem witness_ByteWriteOfModeAndTheOtherPins :
    (∃ g, State.reset.gpios[0]? = some g) ∧ State.reset.cfg.narrowWrite = .zeroExtend ∧
    (merging State.reset).cfg.narrowWrite = .merge := ⟨⟨_, rfl⟩, rfl, rfl⟩

/-- Pin 15 with level 1 and pin 0 with level 0. -/
theorem witness_InputEventSamplesThroughTheGate :
    (∃ g, State.reset.gpios[0]? = some g) ∧
    (({ req 0x3000000F gpioA with level := -1 } : Request).word =
        mkWord 3#4 0#2 0#2 0#8 (BitVec.ofNat 16 (15 : Fin 16).val) ∧
      (true = true ↔ ({ req 0x3000000F gpioA with level := -1 } : Request).level ≠ 0)) ∧
    ((req 0x30000000 gpioA).word = mkWord 3#4 0#2 0#2 0#8 (BitVec.ofNat 16 (0 : Fin 16).val) ∧
      (false = true ↔ (req 0x30000000 gpioA).level ≠ 0)) := by
  refine ⟨⟨_, rfl⟩, ?_⟩
  decide

theorem witness_LedEmitsEveryDelivery :
    (∃ l, State.reset.leds[0]? = some l) ∧
    (req 0x33000000 ledB).word = 0x33000000#32 ∧ (req 0x33000000 ledB).dev = ⟨.led, 0⟩ ∧
    (false = true ↔ (req 0x33000000 ledB).level ≠ 0) := ⟨⟨_, rfl⟩, by decide⟩

theorem witness_ButtonByteDrivesItsWire :
    (∃ u, State.reset.buttons[0]? = some u) ∧ (req 0x52000000 btn).word = 0x52000000#32 ∧
    (req 0x52000000 btn).dev = ⟨.button, 0⟩ ∧ (req 0x52000000 btn).byte = 0#8 := ⟨⟨_, rfl⟩, by decide⟩

/-- Endpoint 63 without a wire, endpoint 7 with one, and the Button's. -/
theorem witness_ConnectAppendsTheSubscriberLast :
    State.reset.hasDevice (sinkDev (.led 1)) = true ∧
    (∃ g, State.reset.gpios[1]? = some g ∧ g.out[(63 : Fin 64)] = none ∧
      g.out[(7 : Fin 64)] = some ⟨false, [.led 1]⟩) ∧
    (∃ u, State.reset.buttons[0]? = some u ∧ u.out = some ⟨false, [.gpio 0 1]⟩) ∧
    isSink { req 0x42000000 btn with sink := ledG } (.led 1) ∧
    isSink { req 0x4000003F gpioB with sinkPin := 15 } (.gpio 0 15) :=
  ⟨rfl, ⟨_, rfl, rfl, rfl⟩, ⟨_, rfl, rfl⟩, ⟨rfl, rfl⟩, ⟨rfl, rfl⟩⟩

/-- GPIOB with wires at the last endpoint that is driven and the first that never is. -/
def boundaryBoard : State :=
  (board fun g => { g with
    mode := 0x40000000#32
    out := (g.out.set 15 (some ⟨false, [.led 0]⟩)).set 16 (some ⟨true, [.led 1]⟩) }).present
      (wr 0x18000014 gpioB 0x18000#32)

/-- A step that drives pin 15, with wires at endpoints 15 and 16, and one that drives the Button's wire. -/
theorem witness_WiresOnlyGainSubscribers :
    (∃ (t : State) (g : Gpio), step boundaryBoard = .next t ∧ boundaryBoard.gpios[1]? = some g ∧
      g.out[(15 : Fin 64)] = some ⟨false, [.led 0]⟩ ∧ g.out[(16 : Fin 64)] = some ⟨true, [.led 1]⟩) ∧
    (∃ (t : State) (u : Button),
      step (State.reset.present { req 0x52000000 btn with byte := 1#8 }) = .next t ∧
      (State.reset.present { req 0x52000000 btn with byte := 1#8 }).buttons[0]? = some u ∧
      u.out = some ⟨false, [.gpio 0 1]⟩) := ⟨⟨_, _, rfl, rfl, rfl, rfl⟩, ⟨_, _, rfl, rfl, rfl⟩⟩

/-- Identity A, B and, on another board, GENERIC. -/
theorem witness_GpioResetLoadsTheVector :
    (State.reset.gpios.map (·.id) = [.A, .B]) ∧
    ((boardA fun g => { g with id := .GENERIC }).gpios.map (·.id) = [.GENERIC, .B]) ∧
    (req 0x20000000 gpioB).word = 0x20000000#32 ∧ (req 0x20000000 gpioB).dev = ⟨.gpio, 1⟩ := by decide

theorem witness_CsrResetLoadsTheTable :
    (∃ b, State.reset.csrs[0]? = some b) ∧ State.reset.cfg.wf ∧
    (req 0x21000000 rcc).word = 0x21000000#32 ∧ (req 0x21000000 rcc).dev = ⟨.csr, 0⟩ :=
  ⟨⟨_, rfl⟩, by decide⟩

theorem witness_ButtonAndLedResetClearTheLevel :
    (∃ u, State.reset.buttons[0]? = some u) ∧ (∃ l, State.reset.leds[1]? = some l) ∧
    (req 0x22000000 btn).word = 0x22000000#32 ∧ (req 0x23000000 ledG).word = 0x23000000#32 :=
  ⟨⟨_, rfl⟩, ⟨_, rfl⟩, by decide⟩

theorem witness_ResetIsIdempotent :
    (∃ t, exec (.resetGpio 0) State.reset = .next t) ∧ (∃ t, exec (.resetCsr 0) State.reset = .next t) ∧
    (∃ t, exec (.resetButton 0) State.reset = .next t) ∧ (∃ t, exec (.resetLed 0) State.reset = .next t) :=
  ⟨⟨_, rfl⟩, ⟨_, rfl⟩, ⟨_, rfl⟩, ⟨_, rfl⟩⟩

/-- The narrowest level, 1 bit, and the board's 8 bits. -/
theorem witness_SaveSuppliesTheFieldsInOrder :
    (∃ g, State.reset.gpios[1]? = some g) ∧ (∃ b, State.reset.csrs[0]? = some b) ∧
    (∃ u, State.reset.buttons[0]? = some u) ∧ (∃ l, State.reset.leds[1]? = some l) ∧
    1 ≤ State.reset.cfg.snapLevelWidth ∧ 1 ≤ ({ Params.board with snapLevelWidth := 1 } : Params).snapLevelWidth ∧
    (req 0x63000000 ledG).word = mkWord 6#4 0#2 DevClass.led.bits 0#8 0#16 :=
  ⟨⟨_, rfl⟩, ⟨_, rfl⟩, ⟨_, rfl⟩, ⟨_, rfl⟩, by decide⟩

theorem witness_RestoreTakesEveryFieldVerbatim :
    (∃ g, State.reset.gpios[1]? = some g) ∧ (∃ b, State.reset.csrs[0]? = some b) ∧
    (∃ u, State.reset.buttons[0]? = some u) ∧ (∃ l, State.reset.leds[1]? = some l) :=
  ⟨⟨_, rfl⟩, ⟨_, rfl⟩, ⟨_, rfl⟩, ⟨_, rfl⟩⟩

/-- An empty record, the last GPIO field, and no LEGACY_FIELD. -/
theorem witness_RestoreRefusesAMissingField :
    State.reset.hasDevice gpioB = true ∧ SnapField.afrh ∈ persisted gpioB.cls ∧
    (∀ e ∈ ([] : Record), e.field ≠ .afrh) ∧ State.reset.cfg.legacyField ≠ some (gpioB.cls, .afrh) := by
  decide

/-- The board with a legacy field. -/
def legacyBoard (c : DevClass) (f : SnapField) : State :=
  { State.reset with cfg := { State.reset.cfg with legacyField := some (c, f) } }

/-- A legacy field of each class. -/
theorem witness_RestoreToleratesTheLegacyField :
    ((∃ g, (legacyBoard .gpio .bsr).gpios[0]? = some g) ∧
      (legacyBoard .gpio .bsr).cfg.legacyField = some (.gpio, .bsr)) ∧
    ((∃ b, (legacyBoard .csr (.reg 13)).csrs[0]? = some b) ∧
      (legacyBoard .csr (.reg 13)).cfg.legacyField = some (.csr, .reg 13)) ∧
    ((∃ u, (legacyBoard .button .lastLevel).buttons[0]? = some u) ∧
      (legacyBoard .button .lastLevel).cfg.legacyField = some (.button, .lastLevel)) ∧
    ((∃ l, (legacyBoard .led .lastLevel).leds[1]? = some l) ∧
      (legacyBoard .led .lastLevel).cfg.legacyField = some (.led, .lastLevel)) :=
  ⟨⟨⟨_, rfl⟩, rfl⟩, ⟨⟨_, rfl⟩, rfl⟩, ⟨⟨_, rfl⟩, rfl⟩, ⟨⟨_, rfl⟩, rfl⟩⟩

theorem witness_RestoreAfterSaveIsIdentity :
    State.reset.cfg.wf ∧
    (∃ (t : State) (rec : Record), exec (.save gpioB) State.reset = .next t ∧ t.reply = .saved rec) ∧
    (∃ (t : State) (rec : Record), exec (.save ledB) State.reset = .next t ∧ t.reply = .saved rec) :=
  ⟨by decide, ⟨_, _, rfl, rfl⟩, ⟨_, _, rfl, rfl⟩⟩

/-- Each of the three causes of R116. -/
theorem witness_InvalidAccessRecordsAFaultAndNothingElse :
    ∀ r ∈ [req 0x0C000000 gpioB, req 0x09000036 rcc, req 0x09000038 rcc, req 0x0A000000 btn],
      (State.reset.present r).halted = false ∧ (State.reset.present r).pending = r :: [] ∧
      r.kindBits = AccessKind.read.bits ∧ r.zBits = 0#8 ∧ r.clsBits = r.dev.cls.bits ∧
      (State.reset.present r).hasDevice r.dev = true ∧
      ¬ (r.wcBits ≠ 3#2 ∧ r.argBits.toNat % 4 = 0 ∧ r.argBits ∈ defOffsets r.dev.cls) := by decide

theorem witness_FaultRowsComplete : State.reset.hasDevice ledG = true := by decide

/-- A step that records a fault and one that does not. -/
theorem witness_FaultLogOnlyGrows :
    (∃ t, step (State.reset.present (req 0x0C000000 gpioB)) = .next t ∧ t.faults.length = 1) ∧
    (∃ t, step State.reset = .next t ∧ t.faults.length = 0) := ⟨⟨_, rfl, rfl⟩, ⟨_, rfl, rfl⟩⟩

/-- A step of the board that drives a wire. -/
theorem witness_StepKeepsTheInvariant :
    (State.reset.present (wr 0x18000014 gpioB 0x8#32)).Inv ∧
    ∃ t, step (State.reset.present (wr 0x18000014 gpioB 0x8#32)) = .next t := ⟨by decide, _, rfl⟩

theorem witness_ShadowsAgreeButForRestore :
    (State.reset.present (wr 0x18000014 gpioB 0x8#32)).ShadowsAgree ∧
    (State.reset.present (wr 0x18000014 gpioB 0x8#32)).nextIsNoRestore = true ∧
    ∃ t, step (State.reset.present (wr 0x18000014 gpioB 0x8#32)) = .next t := ⟨by decide, rfl, _, rfl⟩

theorem witness_IdrHighBitsStayZeroButForRestore :
    (State.reset.present (req 0x3000000F gpioA)).IdrHighZero ∧
    (State.reset.present (req 0x3000000F gpioA)).nextIsNoRestore = true ∧
    ∃ t, step (State.reset.present (req 0x3000000F gpioA)) = .next t := ⟨by decide, rfl, _, rfl⟩

theorem witness_StepKeepsTheConfiguration :
    ∃ t, step (State.reset.present (req 0x20000000 gpioA)) = .next t := ⟨_, rfl⟩

theorem witness_LedStreamsOnlyGrow :
    ∃ (t : State) (l l' : Led), step (State.reset.present (req 0x33000000 ledB)) = .next t ∧
      (State.reset.present (req 0x33000000 ledB)).leds[0]? = some l ∧ t.leds[0]? = some l' :=
  ⟨_, _, _, rfl, rfl, rfl⟩

/-- A request that completes and one that is refused, with another bank. -/
theorem witness_CsrValuesAffectNothingElse :
    ([⟨Vector.replicate 14 0#32, placeRcc⟩] : List CsrBank).length = State.reset.csrs.length ∧
    ¬ usesCsr (.busBadwidth .read ⟨.csr, 0⟩ 0#16) ∧
    (∃ t, exec (.busBadwidth .read ⟨.csr, 0⟩ 0#16) State.reset = .next t) ∧
    ¬ usesCsr (.resetGpio 9) ∧ (∃ e, exec (.resetGpio 9) State.reset = .refused e) := by
  refine ⟨rfl, ?_, ⟨_, rfl⟩, ?_, ⟨_, rfl⟩⟩ <;> simp [usesCsr, csrRegs]

/-- Two states that differ in LCK and the last reply. -/
theorem witness_InertRegistersAffectNothingElse :
    dropInertState State.reset =
      dropInertState { boardA (fun g => { g with lck := 1#32 }) with reply := .done } ∧
    ∃ t, exec (.gpioWrOdr 1 (.b32 0x40#32)) State.reset = .next t := ⟨by decide, _, rfl⟩

theorem witness_RepeatedOdrWriteEmitsNothing : State.reset.hasDevice ⟨.gpio, 1⟩ = true := by decide

/-- GPIOB's wire 6 at level 1. -/
theorem witness_StaleWireCacheSuppressesTheDrive :
    ∃ (g : Gpio) (w : Wire),
      (board fun g => { g with out := g.out.set 6 (some ⟨true, [.led 0]⟩) }).gpios[1]? = some g ∧
      g.out[endpointOf 6] = some w ∧ w.level = true := ⟨_, _, rfl, rfl, rfl⟩

/-- The last address of GPIOA's region, which is in no other, and the first in no region. -/
theorem witness_BusAddressesReachTheirDevice :
    State.reset.placeOf gpioA = some placeGpioA ∧
    placeGpioA.base ≤ 0x400203FF ∧ 0x400203FF < placeGpioA.base + placeGpioA.size ∧
    (∀ d ∈ State.reset.devices, d ≠ gpioA → ∀ p ∈ State.reset.placeOf d,
      ¬ (p.base ≤ 0x400203FF ∧ 0x400203FF < p.base + p.size)) ∧
    (∀ d ∈ State.reset.devices, ∀ p ∈ State.reset.placeOf d,
      ¬ (p.base ≤ 0x40020800 ∧ 0x40020800 < p.base + p.size)) := by decide

theorem witness_SetmodeChangesOneField : (DevName.GPIOA, 0) ∈ gpioNames ∧ (DevName.GPIOB, 1) ∈ gpioNames := by
  decide

theorem witness_SetAndClrChangeOneOutputBit :
    (DevName.GPIOB, 1) ∈ gpioNames ∧ ∃ c, State.reset.gpios[1]? = some c := ⟨by decide, _, rfl⟩

end Sys2Proof.Tests
end

section
/-! # Scope (spec/00_scope.md): every request completes or is refused by name, and no step changes the
configuration. -/

namespace Sys2Proof.Machine

open Sys2Proof.Config Sys2Proof.Claims

/-! ### What a request can answer (R11, R115) -/

/-- The answers that R11 leaves to request `i` in state `s`: there is no fault among them. -/
inductive Answers (s : State) (i : Instr) : Result → Prop where
  /-- The request completes. -/
  | completed (t : State) : Answers s i (.next t)
  /-- A device that the request names does not exist (log 8). -/
  | missing (d : DevRef) (hd : d ∈ devicesOf i) (h : s.hasDevice d = false) :
      Answers s i (.refused (.noSuchDevice d))
  /-- A RESTORE of a malformed record (R136). -/
  | malformed (h : isRestore i = true) : Answers s i (.refused .malformedRecord)

section answers

variable {s : State} {i : Instr} {k : Nat}

/-- The one argument behind the four device lookups: a named device is found, or the refusal names it. -/
theorem lookup_answers {α : Type} {l : List α} {d : DevRef} {f : α → Result} {r : Result}
    (hd : d ∈ devicesOf i) (hl : s.hasDevice d = true ↔ ∃ a, l[d.idx]? = some a)
    (hr : (∃ a, l[d.idx]? = some a ∧ r = f a) ∨
      (l[d.idx]? = none ∧ r = .refused (.noSuchDevice d)))
    (hf : ∀ a, Answers s i (f a)) : Answers s i r := by
  obtain ⟨a, _, rfl⟩ | ⟨hnone, rfl⟩ := hr
  · exact hf a
  · refine .missing d hd (Bool.eq_false_iff.mpr fun h => ?_)
    obtain ⟨a, ha⟩ := hl.mp h
    rw [hnone] at ha
    cases ha

theorem State.onGpio_answers {f : Gpio → Result} (hd : ⟨.gpio, k⟩ ∈ devicesOf i)
    (hf : ∀ g, Answers s i (f g)) : Answers s i (s.onGpio k f) :=
  lookup_answers hd (s.hasDevice_gpio k) (s.onGpio_cases k f) hf

theorem State.onCsr_answers {f : CsrBank → Result} (hd : ⟨.csr, k⟩ ∈ devicesOf i)
    (hf : ∀ b, Answers s i (f b)) : Answers s i (s.onCsr k f) :=
  lookup_answers hd (s.hasDevice_csr k) (s.onCsr_cases k f) hf

theorem State.onButton_answers {f : Button → Result} (hd : ⟨.button, k⟩ ∈ devicesOf i)
    (hf : ∀ u, Answers s i (f u)) : Answers s i (s.onButton k f) :=
  lookup_answers hd (s.hasDevice_button k) (s.onButton_cases k f) hf

theorem State.onLed_answers {f : Led → Result} (hd : ⟨.led, k⟩ ∈ devicesOf i)
    (hf : ∀ l, Answers s i (f l)) : Answers s i (s.onLed k f) :=
  lookup_answers hd (s.hasDevice_led k) (s.onLed_cases k f) hf

/-- What asks for one more device of the request, the sink of a CONNECT or the target of an access that
is not valid, completes or names it. -/
theorem ite_hasDevice_answers {d : DevRef} (hd : d ∈ devicesOf i) (t : State) :
    Answers s i (if s.hasDevice d then .next t else .refused (.noSuchDevice d)) := by
  split
  case isTrue => exact .completed t
  case isFalse h => exact .missing d hd (Bool.eq_false_iff.mpr h)

/-- A RESTORE completes or is refused for its record (R136). -/
theorem accepted_answers (hi : isRestore i = true) (t : Option State) : Answers s i (accepted t) := by
  obtain ⟨u, _, e⟩ | ⟨_, e⟩ := accepted_cases t
  · rw [e]; exact .completed _
  · rw [e]; exact .malformed hi

end answers

/-- SAVE completes at every device that exists (R135). -/
theorem execSave_answers (dev : DevRef) (s : State) :
    Answers s (.save dev) (execSave dev s) := by
  obtain ⟨c, k⟩ := dev
  have hd : ⟨c, k⟩ ∈ devicesOf (.save ⟨c, k⟩) := List.mem_singleton_self _
  cases c with
  | gpio => exact State.onGpio_answers hd fun _ => .completed _
  | csr => exact State.onCsr_answers hd fun _ => .completed _
  | button => exact State.onButton_answers hd fun _ => .completed _
  | led => exact State.onLed_answers hd fun _ => .completed _

/-- RESTORE is the one request that a device which exists may refuse (R136). -/
theorem execRestore_answers (dev : DevRef) (fields : Record) (s : State) :
    Answers s (.restore dev fields) (execRestore dev fields s) := by
  obtain ⟨c, k⟩ := dev
  have hd : ⟨c, k⟩ ∈ devicesOf (.restore ⟨c, k⟩ fields) := List.mem_singleton_self _
  cases c with
  | gpio => exact State.onGpio_answers hd fun _ => accepted_answers rfl _
  | csr => exact State.onCsr_answers hd fun _ => accepted_answers rfl _
  | button => exact State.onButton_answers hd fun _ => accepted_answers rfl _
  | led => exact State.onLed_answers hd fun _ => accepted_answers rfl _

/-- Every request answers as R11 allows. The cases are grouped by the device a request goes to. -/
theorem exec_answers (i : Instr) (s : State) : Answers s i (exec i s) := by
  cases i with
  | gpioRdMode | gpioWrMode | gpioRdOtype | gpioWrOtype | gpioRdOspeed | gpioWrOspeed
  | gpioRdPupd | gpioWrPupd | gpioRdIdr | gpioWrIdr | gpioRdOdr | gpioWrOdr
  | gpioRdBsrr | gpioWrBsrr | gpioRdLck | gpioWrLck | gpioRdAfrl | gpioWrAfrl
  | gpioRdAfrh | gpioWrAfrh | resetGpio | pinInGpio =>
    exact State.onGpio_answers (List.mem_singleton_self _) fun _ => .completed _
  | csrRdReg0 | csrWrReg0 | csrRdReg1 | csrWrReg1 | csrRdReg2 | csrWrReg2
  | csrRdReg3 | csrWrReg3 | csrRdReg4 | csrWrReg4 | csrRdReg5 | csrWrReg5
  | csrRdReg6 | csrWrReg6 | csrRdReg7 | csrWrReg7 | csrRdReg8 | csrWrReg8
  | csrRdReg9 | csrWrReg9 | csrRdReg10 | csrWrReg10 | csrRdReg11 | csrWrReg11
  | csrRdReg12 | csrWrReg12 | csrRdReg13 | csrWrReg13 | resetCsr =>
    exact State.onCsr_answers (List.mem_singleton_self _) fun _ => .completed _
  | resetButton | byteInButton =>
    exact State.onButton_answers (List.mem_singleton_self _) fun _ => .completed _
  | resetLed | pinInLed =>
    exact State.onLed_answers (List.mem_singleton_self _) fun _ => .completed _
  | connectGpio =>
    exact State.onGpio_answers (by simp [devicesOf]) fun _ =>
      ite_hasDevice_answers (by simp [devicesOf]) _
  | connectButton =>
    exact State.onButton_answers (by simp [devicesOf]) fun _ =>
      ite_hasDevice_answers (by simp [devicesOf]) _
  | busBadwidth | busInvalidOffset => exact ite_hasDevice_answers (List.mem_singleton_self _) _
  | save dev => exact execSave_answers dev s
  | restore dev fields => exact execRestore_answers dev fields s

/-- Settles O9: with every named device there and no RESTORE, only completion is left of the three
answers. -/
theorem requestsToExistingDevicesComplete : Obligations.RequestsToExistingDevicesComplete := by
  unfold Obligations.RequestsToExistingDevicesComplete
  intro i s
  have h := exec_answers i s
  generalize exec i s = r at h ⊢
  cases h with
  | completed t => exact ⟨fun _ _ => ⟨t, rfl⟩, .inl ⟨t, rfl⟩⟩
  | missing d hd hno =>
    exact ⟨fun hall _ => absurd (hall d hd) (by simp [hno]), .inr (.inl ⟨d, hd, hno, rfl⟩)⟩
  | malformed hi => exact ⟨fun _ hno => absurd hi (by simp [hno]), .inr (.inr ⟨hi, rfl⟩)⟩

/-! ### The configuration (R7, R16, R27, R40) -/

/-- What R16 and R40 fix of a GPIO controller at its creation. -/
def Gpio.fixed (g : Gpio) : GpioId × Placement := (g.id, g.place)

/-- What is fixed of a system: the parameters, and device by device what R16 and R40 fix. -/
def State.configuration (s : State) :
    Params × List (GpioId × Placement) × List Placement × List Placement × List Placement :=
  (s.cfg, s.gpios.map Gpio.fixed, s.csrs.map (·.place), s.buttons.map (·.place), s.leds.map (·.place))

theorem State.configuration_eq_iff {s t : State} :
    t.configuration = s.configuration ↔
      t.cfg = s.cfg ∧ t.gpios.map Gpio.fixed = s.gpios.map Gpio.fixed ∧
      t.csrs.map (·.place) = s.csrs.map (·.place) ∧
      t.buttons.map (·.place) = s.buttons.map (·.place) ∧
      t.leds.map (·.place) = s.leds.map (·.place) := by
  simp only [State.configuration, Prod.mk.injEq]

/-- Replacing an entry by one with the same image keeps the list of images. -/
theorem map_set_of_image_eq {α β : Type} {l : List α} {k : Nat} {a b : α} {f : α → β}
    (h : l[k]? = some a) (hf : f b = f a) : (l.set k b).map f = l.map f := by
  rw [List.map_set, hf]
  exact set_of_getElem?_eq (by rw [List.getElem?_map, h, Option.map_some])

/-- Lists whose entries have the same images have the same list of images. -/
theorem map_eq_of_getElem?_map {α β : Type} {l m : List α} {f : α → β}
    (h : ∀ n : Nat, l[n]?.map f = m[n]?.map f) : l.map f = m.map f :=
  List.ext_getElem? fun n => by rw [List.getElem?_map, List.getElem?_map, h n]

section configuration

variable {s t : State} {k : Nat}

theorem State.configuration_setGpio {g g' : Gpio} (hg : s.gpios[k]? = some g)
    (h : g'.fixed = g.fixed) :
    ({ s with gpios := s.gpios.set k g' } : State).configuration = s.configuration :=
  State.configuration_eq_iff.mpr ⟨rfl, map_set_of_image_eq hg h, rfl, rfl, rfl⟩

theorem State.configuration_setCsr {b b' : CsrBank} (hb : s.csrs[k]? = some b)
    (h : b'.place = b.place) :
    ({ s with csrs := s.csrs.set k b' } : State).configuration = s.configuration :=
  State.configuration_eq_iff.mpr ⟨rfl, rfl, map_set_of_image_eq hb h, rfl, rfl⟩

theorem State.configuration_setButton {u u' : Button} (hu : s.buttons[k]? = some u)
    (h : u'.place = u.place) :
    ({ s with buttons := s.buttons.set k u' } : State).configuration = s.configuration :=
  State.configuration_eq_iff.mpr ⟨rfl, rfl, rfl, map_set_of_image_eq hu h, rfl⟩

theorem State.configuration_setLed {l l' : Led} (hl : s.leds[k]? = some l)
    (h : l'.place = l.place) :
    ({ s with leds := s.leds.set k l' } : State).configuration = s.configuration :=
  State.configuration_eq_iff.mpr ⟨rfl, rfl, rfl, rfl, map_set_of_image_eq hl h⟩

@[simp] theorem Gpio.fixed_onLevel (g : Gpio) (i : Fin 16) (b : Bool) :
    (g.onLevel i b).fixed = g.fixed := by rw [Gpio.onLevel_eq]; rfl

@[simp] theorem Gpio.fixed_receive (n : Nat) (g : Gpio) (ds : List Delivery) :
    (g.receive n ds).fixed = g.fixed := by rw [Gpio.receive_eq]; rfl

@[simp] theorem Led.place_receive (n : Nat) (l : Led) (ds : List Delivery) :
    (l.receive n ds).place = l.place := by rw [Led.receive_eq]

theorem Gpio.fixed_restore {p : Params} {fields : Record} {g g' : Gpio}
    (h : Gpio.restore p fields g = some g') : g'.fixed = g.fixed := by
  obtain ⟨hid, _, hplace⟩ := Gpio.restore_keeps h
  rw [Gpio.fixed, hid, hplace, Gpio.fixed]

/-- LEDs that only received notifications keep their placements. -/
theorem map_place_of_receive {ds : List Delivery}
    (h : ∀ n, t.leds[n]? = s.leds[n]?.map fun l : Led => l.receive n ds) :
    t.leds.map (·.place) = s.leds.map (·.place) :=
  map_eq_of_getElem?_map fun n => by simp [h n, Function.comp_def]

/-- Notifications keep the configuration. -/
theorem Driven.configuration_eq {ds : List Delivery} (h : Driven s t ds) :
    t.configuration = s.configuration := by
  have hg : t.gpios.map Gpio.fixed = s.gpios.map Gpio.fixed :=
    map_eq_of_getElem?_map fun n => by simp [h.gpios n, Function.comp_def]
  rw [h.frame]
  exact State.configuration_eq_iff.mpr ⟨rfl, hg, rfl, rfl, map_place_of_receive h.leds⟩

/-- So does driving the wires of a controller. -/
theorem GpioDriven.configuration_eq {g : Gpio} {outs : Vector (Option Wire) 64} {ds : List Delivery}
    (h : GpioDriven s t k g outs ds) (hk : s.gpios[k]?.map Gpio.fixed = some g.fixed) :
    t.configuration = s.configuration := by
  have hg : t.gpios.map Gpio.fixed = s.gpios.map Gpio.fixed :=
    map_eq_of_getElem?_map fun n => by
      by_cases hn : n = k
      · subst hn
        rw [h.self, hk, Option.map_some, Gpio.fixed_receive]
        rfl
      · simp [h.others n hn, Function.comp_def]
  rw [h.frame]
  exact State.configuration_eq_iff.mpr ⟨rfl, hg, rfl, rfl, map_place_of_receive h.leds⟩

/-- Every effect of a request keeps the configuration. -/
theorem Effect.configuration_eq {i : Instr} (h : Effect s i t) :
    t.configuration = s.configuration := by
  cases h with
  | answered => rfl
  | faulted => rfl
  | configured k g g' hg h =>
    exact State.configuration_setGpio hg (by rw [h]; rfl)
  | driven k g g' t hg h hd =>
    calc t.configuration
      _ = ({ s with gpios := s.gpios.set k g' } : State).configuration :=
        hd.configuration_eq (by rw [getElem?_set_of_some hg]; rfl)
      _ = s.configuration := State.configuration_setGpio hg (by rw [h]; rfl)
  | sampled k g pin b hg => exact State.configuration_setGpio hg (g.fixed_onLevel pin b)
  | gpioReset k g hg => exact State.configuration_setGpio hg rfl
  | gpioRestored k fields g g' _ hg h => exact State.configuration_setGpio hg (Gpio.fixed_restore h)
  | gpioConnected k g p sink hg => exact State.configuration_setGpio hg rfl
  | csr k b b' hb h => exact State.configuration_setCsr hb h
  | button k u b hu => exact State.configuration_setButton hu rfl
  | buttonConnected k u sink hu => exact State.configuration_setButton hu rfl
  | byteIn k u b t hu hd =>
    exact hd.configuration_eq.trans (State.configuration_setButton hu rfl)
  | led k l l' hl hp => exact State.configuration_setLed hl hp

end configuration

/-- No step changes the configuration: it idles, or takes a request from the queue and has one effect. -/
theorem step_configuration_eq {s t : State} (h : step s = .next t) :
    t.configuration = s.configuration := by
  obtain ⟨_, rfl⟩ | ⟨_, _, _, _, _, heffect⟩ := step_cases h
  · rfl
  · exact heffect.configuration_eq

/-- Settles O44, effect by effect. -/
theorem stepKeepsTheConfiguration : Obligations.StepKeepsTheConfiguration := by
  unfold Obligations.StepKeepsTheConfiguration
  intro s t h
  exact State.configuration_eq_iff.mp (step_configuration_eq h)

end Sys2Proof.Machine
end

section
/-! # State (spec/10_state.md): what a step is, what it does to each device, and which registers nothing
depends on. -/

namespace Sys2Proof.Machine

open Sys2Proof.Config Sys2Proof.Claims

/-! ### The step (R14, R46) -/

theorem step_of_halted {s : State} (h : s.halted = true) : step s = .fault .halted := by
  rw [step, if_pos h]

theorem step_of_idle {s : State} (h : s.halted = false) (hp : s.pending = []) : step s = .next s := by
  simp [step, h, State.fetch, hp]

theorem step_of_decode_ok {s : State} {r : Request} {rest : List Request} {i : Instr}
    (h : s.halted = false) (hp : s.pending = r :: rest) (hd : decode r = .ok i) :
    step s = exec i { s with pending := rest } := by
  simp [step, h, State.fetch, hp, hd]

theorem step_of_decode_error {s : State} {r : Request} {rest : List Request} {e : DecodeError}
    (h : s.halted = false) (hp : s.pending = r :: rest) (hd : decode r = .error e) :
    step s = .refused (.undecodable e) := by
  simp [step, h, State.fetch, hp, hd]

/-- Settles O8: the four cases of the step. -/
theorem stepPerformsTheOldestRequest : Obligations.StepPerformsTheOldestRequest := by
  unfold Obligations.StepPerformsTheOldestRequest
  intro s
  exact ⟨step_of_halted, step_of_idle, fun _ _ _ => step_of_decode_ok,
    fun _ _ _ => step_of_decode_error⟩

/-! ### Lists of devices, entry by entry -/

/-- The two lists have the same entries up to `R`, number by number. -/
def Entrywise {α : Type} (R : α → α → Prop) (l m : List α) : Prop :=
  ∀ n : Nat, Option.Rel R l[n]? m[n]?

section entrywise

variable {α : Type} {R : α → α → Prop} {l m : List α}

theorem optionRel_map {f : α → α} (hf : ∀ a, R a (f a)) (o : Option α) :
    Option.Rel R o (o.map f) := by
  cases o with
  | none => exact .none
  | some a => exact .some (hf a)

theorem Entrywise.refl (hR : ∀ a, R a a) (l : List α) : Entrywise R l l := by
  intro n
  simpa using optionRel_map (f := id) hR l[n]?

/-- Replacing one entry. -/
theorem Entrywise.set (hR : ∀ a, R a a) {k : Nat} {a b : α} (h : l[k]? = some a) (hab : R a b) :
    Entrywise R l (l.set k b) := by
  intro n
  by_cases hn : k = n
  · subst hn
    rw [h, getElem?_set_of_some h]
    exact .some hab
  · rw [List.getElem?_set_ne hn]
    exact Entrywise.refl hR l n

/-- Changing every entry by its number. -/
theorem Entrywise.of_map {f : Nat → α → α} (hf : ∀ n a, R a (f n a))
    (h : ∀ n, m[n]? = l[n]?.map (f n)) : Entrywise R l m := by
  intro n
  rw [h n]
  exact optionRel_map (hf n) l[n]?

theorem Entrywise.next_of_some (h : Entrywise R l m) {n : Nat} {a : α} (ha : l[n]? = some a) :
    ∃ b, m[n]? = some b ∧ R a b := by
  have hn := h n
  rw [ha] at hn
  generalize m[n]? = o at hn ⊢
  cases hn with
  | some hab => exact ⟨_, rfl, hab⟩

/-- What `R` carries over from each entry holds of every entry afterwards. -/
theorem Entrywise.forall_mem {P : α → Prop} {Q : α → Prop} (h : Entrywise R l m)
    (hP : ∀ a ∈ l, P a) (hR : ∀ a b, R a b → P a → Q b) : ∀ b ∈ m, Q b := by
  intro b hb
  obtain ⟨n, hn⟩ := List.mem_iff_getElem?.mp hb
  have hrel := h n
  rw [hn] at hrel
  cases hl : l[n]? with
  | none => rw [hl] at hrel; cases hrel
  | some a =>
    rw [hl] at hrel
    cases hrel with
    | some hab => exact hR a b hab (hP a (List.mem_of_getElem? hl))

end entrywise

/-! ### What a request does to one endpoint (R30, R108, R109) -/

/-- What a request in state `s` makes of the wire at an endpoint that it may drive only if `drives`. -/
inductive EndpointMove (s : State) (drives : Prop) (w : Option Wire) : Option Wire → Prop where
  /-- The wire stays. -/
  | kept : EndpointMove s drives w w
  /-- The wire takes a level (R109). -/
  | driven (b : Bool) (hd : drives) : EndpointMove s drives w (drivenWire w b)
  /-- A CONNECT to a sink that exists (R108, log 8). -/
  | connected (sink : Sink) (hs : s.hasDevice (sinkDev sink) = true) :
      EndpointMove s drives w (some (connectWire w sink))

section endpoints

variable {s : State} {drives : Prop}

/-- A wire is never lost (R30), its subscribers stay in front, and only driving changes its level. -/
theorem EndpointMove.wire_kept {w : Wire} {o : Option Wire} (h : EndpointMove s drives (some w) o) :
    ∃ w', o = some w' ∧ w.subs <+: w'.subs ∧ (¬ drives → w'.level = w.level) := by
  cases h with
  | kept => exact ⟨w, rfl, List.prefix_rfl, fun _ => rfl⟩
  | driven b hd => exact ⟨_, rfl, List.prefix_rfl, fun hno => absurd hd hno⟩
  | connected sink _ => exact ⟨_, rfl, List.prefix_append .., fun _ => rfl⟩

@[simp] theorem endpointOk_drivenWire (s : State) (w : Option Wire) (b : Bool) :
    endpointOk s (drivenWire w b) = endpointOk s w := by
  cases w <;> rfl

theorem endpointOk_connectWire {w : Option Wire} {sink : Sink} (hw : endpointOk s w = true)
    (hs : s.hasDevice (sinkDev sink) = true) : endpointOk s (some (connectWire w sink)) = true := by
  cases w with
  | none => simp [endpointOk, connectWire, Wire.sinksExist, hs]
  | some w =>
    simp only [endpointOk, connectWire, Wire.sinksExist, List.all_append, Bool.and_eq_true] at hw ⊢
    exact ⟨hw, by simp [hs]⟩

/-- A wire keeps leading to devices that exist. -/
theorem EndpointMove.endpointOk {w w' : Option Wire} (h : EndpointMove s drives w w')
    (hw : endpointOk s w = true) : endpointOk s w' = true := by
  cases h with
  | kept => exact hw
  | driven b => rw [endpointOk_drivenWire, hw]
  | connected sink hs => exact endpointOk_connectWire hw hs

end endpoints

/-! ### What a request does to one GPIO controller -/

/-- What request `i` in state `s` makes of GPIO controller `g`. -/
inductive GpioMove (s : State) (i : Instr) (g : Gpio) : Gpio → Prop where
  /-- Nothing, or a write of a configuration register (R65 to R77). -/
  | configured (g' : Gpio) (h : g' = { g' with
      id := g.id, idr := g.idr, odr := g.odr, odrOld := g.odrOld, out := g.out, place := g.place }) :
      GpioMove s i g g'
  /-- A write of ODR or BSRR and the update algorithm (R79), whose notifications may come back. -/
  | updated (g' : Gpio) (n : Nat) (ds : List Delivery)
      (h : g' = { g with odr := g'.odr, bsr := g'.bsr }) :
      GpioMove s i g
        (({ g' with odrOld := g'.odr, out := outsAfter g' pins } : Gpio).receive n ds)
  /-- Input events (R86). -/
  | notified (n : Nat) (ds : List Delivery) : GpioMove s i g (g.receive n ds)
  /-- RESET.GPIO (R129). -/
  | reset : GpioMove s i g (g.reset s.cfg)
  /-- RESTORE (R136). -/
  | restored (fields : Record) (g' : Gpio) (hi : isRestore i = true)
      (h : Gpio.restore s.cfg fields g = some g') : GpioMove s i g g'
  /-- CONNECT.GPIO (R108). -/
  | connected (p : Fin 64) (sink : Sink) (hs : s.hasDevice (sinkDev sink) = true) :
      GpioMove s i g { g with out := g.out.set p.val (some (connectWire g.out[p] sink)) }

section gpios

variable {s t : State} {i : Instr} {g g' : Gpio}

theorem GpioMove.refl (g : Gpio) : GpioMove s i g g := .configured g rfl

/-- One input event is a list of one notification. -/
theorem Gpio.onLevel_eq_receive (n : Nat) (g : Gpio) (q : Fin 16) (b : Bool) :
    g.onLevel q b = g.receive n [(.gpio n q, b)] := by
  simp [Gpio.receive]

/-- Every effect of a request moves each controller, all the others but the target at most by
notifications. -/
theorem Effect.gpios_move (h : Effect s i t) : Entrywise (GpioMove s i) s.gpios t.gpios := by
  have hrefl : Entrywise (GpioMove s i) s.gpios s.gpios := Entrywise.refl GpioMove.refl _
  cases h with
  | answered => exact hrefl
  | faulted => exact hrefl
  | configured k g g' hg h => exact Entrywise.set GpioMove.refl hg (.configured g' h)
  | driven k g g' t hg h hd =>
    intro n
    by_cases hn : n = k
    · subst hn
      rw [State.answer_gpios, hd.self, hg]
      exact .some (.updated g' n _ h)
    · rw [State.answer_gpios, hd.others n hn, List.getElem?_set_ne (Ne.symm hn)]
      exact optionRel_map (fun g => .notified n _) s.gpios[n]?
  | sampled k g pin b hg =>
    rw [Gpio.onLevel_eq_receive k]
    exact Entrywise.set GpioMove.refl hg (.notified k _)
  | gpioReset k g hg => exact Entrywise.set GpioMove.refl hg .reset
  | gpioRestored k fields g g' hi hg h =>
    exact Entrywise.set GpioMove.refl hg (.restored fields g' (by rw [hi]; rfl) h)
  | gpioConnected k g p sink hg hs => exact Entrywise.set GpioMove.refl hg (.connected p sink hs)
  | csr => exact hrefl
  | button => exact hrefl
  | buttonConnected => exact hrefl
  | byteIn k u b t _ hd => exact Entrywise.of_map (fun n a => .notified n _) hd.gpios
  | led => exact hrefl

/-- The update algorithm drives endpoints 0 to 15 at most (R87). -/
theorem Gpio.wireAfter_move (g : Gpio) (p : Fin 64) :
    EndpointMove s (p.val < 16) g.out[p] (g.wireAfter p) := by
  unfold Gpio.wireAfter
  split
  next hp =>
    split
    · exact .driven _ hp
    · exact .kept
  next => exact .kept

/-- Each endpoint of a controller keeps its wire, is driven, or is connected. -/
theorem GpioMove.endpoint (h : GpioMove s i g g') (p : Fin 64) :
    EndpointMove s (p.val < 16) g.out[p] g'.out[p] := by
  cases h with
  | configured g' h => rw [h]; exact .kept
  | updated g' n ds h =>
    have hout : g'.out = g.out := by rw [h]
    rw [Gpio.receive_out, outsAfter_pins_getElem, ← hout]
    exact g'.wireAfter_move p
  | notified n ds => rw [Gpio.receive_out]; exact .kept
  | reset => exact .kept
  | restored fields g' _ h =>
    obtain ⟨_, hout, _⟩ := Gpio.restore_keeps h
    rw [hout]; exact .kept
  | connected q sink hs =>
    by_cases hq : q = p
    · subst hq
      simpa using EndpointMove.connected sink hs
    · have hne : q.val ≠ p.val := fun e => hq (Fin.ext e)
      rw [Fin.getElem_fin, Fin.getElem_fin, Vector.getElem_set_ne _ _ hne]
      exact .kept

/-- Whatever writes ODR sets ODR_old to it, but for a RESTORE (R35). -/
theorem GpioMove.shadow_agrees (h : GpioMove s i g g') (hi : isRestore i = false)
    (hg : g.odrOld = g.odr) : g'.odrOld = g'.odr := by
  cases h with
  | configured g' h => rw [h]; exact hg
  | updated g' n ds => rw [Gpio.receive_odrOld, Gpio.receive_odr]
  | notified n ds => rw [Gpio.receive_odrOld, Gpio.receive_odr, hg]
  | reset => rfl
  | restored fields g' hr => rw [hr] at hi; cases hi
  | connected => exact hg

/-- Notifications reach the 16 pins of IDR alone (R21, R86). -/
theorem Gpio.receive_idr_high (n : Nat) (g : Gpio) (ds : List Delivery) :
    (g.receive n ds).idr.extractLsb' 16 16 = g.idr.extractLsb' 16 16 := by
  apply BitVec.eq_of_getLsbD_eq
  intro j _
  have hj : ¬ 16 + j < 16 := by omega
  rw [BitVec.getLsbD_extractLsb', BitVec.getLsbD_extractLsb', Gpio.receive_idr_getLsbD, idrBitAfter,
    dif_neg hj]

/-- No request but a RESTORE writes IDR bits 31:16 (R36). -/
theorem GpioMove.idr_high_zero (h : GpioMove s i g g') (hi : isRestore i = false)
    (hg : g.idr.extractLsb' 16 16 = 0#16) : g'.idr.extractLsb' 16 16 = 0#16 := by
  cases h with
  | configured g' h => rw [h]; exact hg
  | updated g' n ds h =>
    have hidr : g'.idr = g.idr := by rw [h]
    rw [Gpio.receive_idr_high, hidr, hg]
  | notified n ds => rw [Gpio.receive_idr_high, hg]
  | reset => exact BitVec.extractLsb'_zero
  | restored fields g' hr => rw [hr] at hi; cases hi
  | connected => exact hg

end gpios

/-! ### What a request does to the Buttons, the LEDs, FAULTS and the halt -/

section others

variable {s t : State} {i : Instr}

/-- The wire of Button `u` stays, is driven, or is connected in `u'` (R108, R112). -/
def ButtonMove (s : State) (u u' : Button) : Prop := EndpointMove s True u.out u'.out

theorem ButtonMove.refl (u : Button) : ButtonMove s u u := .kept

/-- Every effect of a request moves each Button. -/
theorem Effect.buttons_move (h : Effect s i t) : Entrywise (ButtonMove s) s.buttons t.buttons := by
  have hrefl : Entrywise (ButtonMove s) s.buttons s.buttons := Entrywise.refl ButtonMove.refl _
  cases h with
  | answered => exact hrefl
  | faulted => exact hrefl
  | configured => exact hrefl
  | driven k g g' t _ _ hd => rw [hd.frame]; exact hrefl
  | sampled => exact hrefl
  | gpioReset => exact hrefl
  | gpioRestored => exact hrefl
  | gpioConnected => exact hrefl
  | csr => exact hrefl
  | button k u b hu => exact Entrywise.set ButtonMove.refl hu (.refl u)
  | buttonConnected k u sink hu hs => exact Entrywise.set ButtonMove.refl hu (.connected sink hs)
  | byteIn k u b t hu hd =>
    rw [hd.frame]
    exact Entrywise.set ButtonMove.refl hu (.driven b trivial)
  | led => exact hrefl

/-- The stream of `l` is the start of the stream of `l'` (R32). -/
def Led.Grows (l l' : Led) : Prop := l.out <+: l'.out

theorem Led.Grows.refl (l : Led) : l.Grows l := List.prefix_rfl

/-- Notifications append to an LED's stream (R113). -/
theorem Led.receive_grows (n : Nat) (l : Led) (ds : List Delivery) : l.Grows (l.receive n ds) := by
  rw [Led.Grows, Led.receive_eq]
  exact List.prefix_append ..

/-- No effect takes a byte out of an LED's stream. -/
theorem Effect.leds_grow (h : Effect s i t) : Entrywise Led.Grows s.leds t.leds := by
  have hrefl : Entrywise Led.Grows s.leds s.leds := Entrywise.refl Led.Grows.refl _
  cases h with
  | answered => exact hrefl
  | faulted => exact hrefl
  | configured => exact hrefl
  | driven k g g' t _ _ hd => exact Entrywise.of_map (fun n l => l.receive_grows n _) hd.leds
  | sampled => exact hrefl
  | gpioReset => exact hrefl
  | gpioRestored => exact hrefl
  | gpioConnected => exact hrefl
  | csr => exact hrefl
  | button => exact hrefl
  | buttonConnected => exact hrefl
  | byteIn k u b t _ hd => exact Entrywise.of_map (fun n l => l.receive_grows n _) hd.leds
  | led k l l' hl _ ho => exact Entrywise.set Led.Grows.refl hl ho

/-- Either FAULTS and the halt stay, or one fault is recorded and `HALT_ON_INVALID` may halt (R33,
R116, log 5). -/
theorem Effect.faults_cases (h : Effect s i t) :
    (t.faults = s.faults ∧ t.halted = s.halted) ∨
    ∃ e, t.faults = s.faults ++ [e] ∧ t.halted = (s.halted || s.cfg.haltOnInvalid) := by
  cases h with
  | faulted dev off kind => exact .inr ⟨_, rfl, rfl⟩
  | driven k g g' t _ _ hd => rw [hd.frame]; exact .inl ⟨rfl, rfl⟩
  | byteIn k u b t _ hd => rw [hd.frame]; exact .inl ⟨rfl, rfl⟩
  | answered | configured | sampled | gpioReset | gpioRestored | gpioConnected | csr | button
  | buttonConnected | led => exact .inl ⟨rfl, rfl⟩

/-- Which devices exist is part of the configuration. -/
theorem State.hasDevice_of_configuration_eq (h : t.configuration = s.configuration) (d : DevRef) :
    t.hasDevice d = s.hasDevice d := by
  obtain ⟨_, hg, hc, hb, hl⟩ := State.configuration_eq_iff.mp h
  have hg := congrArg List.length hg
  have hc := congrArg List.length hc
  have hb := congrArg List.length hb
  have hl := congrArg List.length hl
  simp only [List.length_map] at hg hc hb hl
  simp only [State.hasDevice, hg, hc, hb, hl]

/-- So is whether a wire leads to devices that exist. -/
theorem endpointOk_of_configuration_eq (h : t.configuration = s.configuration) (w : Option Wire) :
    endpointOk t w = endpointOk s w := by
  have hd : t.hasDevice = s.hasDevice := funext (State.hasDevice_of_configuration_eq h)
  cases w with
  | none => rfl
  | some w => simp only [endpointOk, Wire.sinksExist, hd]

/-- Every effect keeps the invariant of the block: the parameters by the configuration, the wires
endpoint by endpoint, the halt by the fault log. -/
theorem Effect.inv (h : Effect s i t) (hs : s.Inv) : t.Inv := by
  obtain ⟨hcfg, hgpios, hbuttons, hhalt⟩ := hs
  have hconf := h.configuration_eq
  obtain ⟨hcfg_eq, _⟩ := State.configuration_eq_iff.mp hconf
  refine ⟨hcfg_eq ▸ hcfg, ?_, ?_, ?_⟩
  · refine h.gpios_move.forall_mem hgpios fun g g' hmove hg p => ?_
    rw [endpointOk_of_configuration_eq hconf]
    exact (hmove.endpoint p).endpointOk (hg p)
  · refine h.buttons_move.forall_mem hbuttons fun u u' hmove hu => ?_
    rw [endpointOk_of_configuration_eq hconf]
    exact EndpointMove.endpointOk hmove hu
  · rw [hcfg_eq]
    obtain ⟨hfaults, hhalted⟩ | ⟨e, hfaults, hhalted⟩ := h.faults_cases
    · rw [hfaults, hhalted]
      exact hhalt
    · intro ht
      rw [hhalted, Bool.or_eq_true] at ht
      exact ⟨ht.elim (fun hh => (hhalt hh).1) id, by simp [hfaults]⟩

end others

/-! ### Over a step: it idles, or has one effect on the state without the request it performs -/

/-- Settles O40: an idle step keeps the state, and every effect keeps the invariant. -/
theorem stepKeepsTheInvariant : Obligations.StepKeepsTheInvariant := by
  unfold Obligations.StepKeepsTheInvariant
  intro s t hinv h
  obtain ⟨_, rfl⟩ | ⟨_, _, _, _, _, heffect⟩ := step_cases h
  · exact hinv
  · exact heffect.inv hinv

/-- Settles O27, endpoint by endpoint. -/
theorem wiresOnlyGainSubscribers : Obligations.WiresOnlyGainSubscribers := by
  unfold Obligations.WiresOnlyGainSubscribers
  intro s t k w h
  obtain ⟨_, rfl⟩ | ⟨_, _, _, _, _, heffect⟩ := step_cases h
  · exact ⟨fun g p hg hw => ⟨g, w, hg, hw, List.prefix_rfl, fun _ => rfl⟩,
      fun u hu hw => ⟨u, w, hu, hw, List.prefix_rfl⟩⟩
  · refine ⟨fun g p hg hw => ?_, fun u hu hw => ?_⟩
    · obtain ⟨g', hg', hmove⟩ := heffect.gpios_move.next_of_some hg
      have hp := hmove.endpoint p
      rw [hw] at hp
      obtain ⟨w', hw', hsubs, hlevel⟩ := hp.wire_kept
      exact ⟨g', w', hg', hw', hsubs, fun h16 => hlevel (Nat.not_lt.mpr h16)⟩
    · obtain ⟨u', hu', hmove⟩ := heffect.buttons_move.next_of_some hu
      rw [ButtonMove, hw] at hmove
      obtain ⟨w', hw', hsubs, _⟩ := hmove.wire_kept
      exact ⟨u', w', hu', hw', hsubs⟩

/-- Settles O39: an effect records a fault or leaves FAULTS. -/
theorem faultLogOnlyGrows : Obligations.FaultLogOnlyGrows := by
  unfold Obligations.FaultLogOnlyGrows
  intro s t h
  obtain ⟨_, rfl⟩ | ⟨_, _, _, _, _, heffect⟩ := step_cases h
  · exact ⟨[], (List.append_nil _).symm, Nat.zero_le 1⟩
  · obtain ⟨hfaults, _⟩ | ⟨e, hfaults, _⟩ := heffect.faults_cases
    · exact ⟨[], by rw [hfaults, List.append_nil], Nat.zero_le 1⟩
    · exact ⟨[e], hfaults, Nat.le_refl 1⟩

/-- The request of a step that is said to perform no RESTORE is none. -/
theorem isRestore_of_nextIsNoRestore {s : State} {r : Request} {rest : List Request} {i : Instr}
    (h : s.nextIsNoRestore = true) (hp : s.pending = r :: rest) (hd : decode r = .ok i) :
    isRestore i = false := by
  simpa [State.nextIsNoRestore, hp, hd] using h

/-- Settles O42, controller by controller. -/
theorem shadowsAgreeButForRestore : Obligations.ShadowsAgreeButForRestore := by
  unfold Obligations.ShadowsAgreeButForRestore
  intro s t hs hno h
  obtain ⟨_, rfl⟩ | ⟨r, rest, i, hp, hd, heffect⟩ := step_cases h
  · exact hs
  · have hi := isRestore_of_nextIsNoRestore hno hp hd
    exact heffect.gpios_move.forall_mem hs fun g g' hmove => hmove.shadow_agrees hi

/-- Settles O43, controller by controller. -/
theorem idrHighBitsStayZeroButForRestore : Obligations.IdrHighBitsStayZeroButForRestore := by
  unfold Obligations.IdrHighBitsStayZeroButForRestore
  intro s t hs hno h
  obtain ⟨_, rfl⟩ | ⟨r, rest, i, hp, hd, heffect⟩ := step_cases h
  · exact hs
  · have hi := isRestore_of_nextIsNoRestore hno hp hd
    exact heffect.gpios_move.forall_mem hs fun g g' hmove => hmove.idr_high_zero hi

/-- Settles O45, LED by LED. -/
theorem ledStreamsOnlyGrow : Obligations.LedStreamsOnlyGrow := by
  unfold Obligations.LedStreamsOnlyGrow
  intro s t k l l' h hl hl'
  obtain ⟨_, rfl⟩ | ⟨_, _, _, _, _, heffect⟩ := step_cases h
  · rw [hl] at hl'
    cases hl'
    exact List.prefix_rfl
  · obtain ⟨l'', hl'', hgrows⟩ := heffect.leds_grow.next_of_some hl
    rw [hl'] at hl''
    cases hl''
    exact hgrows

end Sys2Proof.Machine
end

section
/-! # The registers that nothing depends on (spec/10_state.md R18, R19, R24 to R26): performing a request
on a state without the inert registers gives the same answer, those registers and the reply aside; so two
states that agree but for them answer the same. -/

namespace Sys2Proof.Machine

open Sys2Proof.Config Sys2Proof.Claims

/-- An answer without the inert registers and the reply of its state. -/
def dropInertResult (r : Result) : Result :=
  match r with
  | .next s => .next (dropInertState s)
  | .fault e => .fault e
  | .refused e => .refused e

/-- The operation answers the same on the state without the inert registers. -/
def IgnoresInert (op : State → Result) : Prop :=
  ∀ s, dropInertResult (op s) = dropInertResult (op (dropInertState s))

section inert

variable {k : Nat}

@[simp] theorem dropInert_dropInert (g : Gpio) : dropInert (dropInert g) = dropInert g := rfl

@[simp] theorem dropInertState_gpios (s : State) : (dropInertState s).gpios = s.gpios.map dropInert := rfl
@[simp] theorem dropInertState_csrs (s : State) : (dropInertState s).csrs = s.csrs := rfl
@[simp] theorem dropInertState_buttons (s : State) : (dropInertState s).buttons = s.buttons := rfl
@[simp] theorem dropInertState_leds (s : State) : (dropInertState s).leds = s.leds := rfl

@[simp] theorem dropInertState_dropInertState (s : State) :
    dropInertState (dropInertState s) = dropInertState s := by
  simp [dropInertState, Function.comp_def]

@[simp] theorem hasDevice_dropInertState (s : State) (d : DevRef) :
    (dropInertState s).hasDevice d = s.hasDevice d := by
  obtain ⟨c, n⟩ := d
  cases c with
  | gpio => simp [State.hasDevice]
  | csr | button | led => rfl

theorem dropInertState_modifyButton (s : State) (k : Nat) (f : Button → Button) :
    dropInertState (s.modifyButton k f) = (dropInertState s).modifyButton k f := rfl

theorem dropInertState_modifyLed (s : State) (k : Nat) (f : Led → Led) :
    dropInertState (s.modifyLed k f) = (dropInertState s).modifyLed k f := rfl

/-- The one argument about changing an entry: seen through `d`, and then `e`, it is a change of the list
seen through `d`. -/
theorem map_modify_eq {α : Type} {d e f f' : α → α} (hd : ∀ a, d a = e (d a))
    (h : ∀ a, d (f a) = e (f' (d a))) (l : List α) (k : Nat) :
    (l.modify k f).map d = ((l.map d).modify k f').map e := by
  apply List.ext_getElem?
  intro n
  simp only [List.getElem?_map, List.getElem?_modify]
  cases l[n]? with
  | none => rfl
  | some a =>
    by_cases hn : k = n
    · simp [hn, h]
    · simp [hn, ← hd]

/-- A change of a controller that keeps its inert registers and does not depend on them. -/
theorem dropInertState_modifyGpio_of_commutes (s : State) (k : Nat) {f : Gpio → Gpio}
    (h : ∀ g, dropInert (f g) = f (dropInert g)) :
    dropInertState (s.modifyGpio k f) = (dropInertState s).modifyGpio k f := by
  have hmap := map_modify_eq (d := dropInert) (e := id) (fun _ => rfl) h s.gpios k
  rw [List.map_id] at hmap
  simp only [dropInertState, State.modifyGpio, hmap]

/-- A change of a controller whose outcome, inert registers aside, does not depend on them. -/
theorem dropInertState_modifyGpio_of_respects (s : State) (k : Nat) {f f' : Gpio → Gpio}
    (h : ∀ g, dropInert (f g) = dropInert (f' (dropInert g))) :
    dropInertState (s.modifyGpio k f) = dropInertState ((dropInertState s).modifyGpio k f') := by
  have hmap := map_modify_eq (d := dropInert) (e := dropInert) (fun _ => rfl) h s.gpios k
  simp only [dropInertState, State.modifyGpio, hmap]

/-! ### Wires and the update algorithm -/

theorem dropInert_onLevel (g : Gpio) (q : Fin 16) (b : Bool) :
    dropInert (g.onLevel q b) = (dropInert g).onLevel q b := by
  rw [Gpio.onLevel_eq, Gpio.onLevel_eq]
  rfl

theorem dropInertState_deliver (s : State) (sink : Sink) (b : Bool) :
    dropInertState (s.deliver sink b) = (dropInertState s).deliver sink b := by
  cases sink with
  | gpio n q => exact dropInertState_modifyGpio_of_commutes s n fun g => dropInert_onLevel g q b
  | led n => exact dropInertState_modifyLed s n _

theorem dropInertState_deliverAll (s : State) (subs : List Sink) (b : Bool) :
    dropInertState (s.deliverAll subs b) = (dropInertState s).deliverAll subs b := by
  induction subs generalizing s with
  | nil => rfl
  | cons k subs ih =>
    calc dropInertState ((s.deliver k b).deliverAll subs b)
      _ = (dropInertState (s.deliver k b)).deliverAll subs b := ih _
      _ = ((dropInertState s).deliver k b).deliverAll subs b := by rw [dropInertState_deliver]

theorem dropInertState_setGpioWire (s : State) (k : Nat) (p : Fin 64) (w : Wire) :
    dropInertState (s.setGpioWire k p w) = (dropInertState s).setGpioWire k p w :=
  dropInertState_modifyGpio_of_commutes s k fun _ => rfl

@[simp] theorem gpioWire_dropInertState (s : State) (k : Nat) (p : Fin 64) :
    (dropInertState s).gpioWire k p = s.gpioWire k p := by
  simp only [State.gpioWire, dropInertState_gpios, List.getElem?_map]
  cases s.gpios[k]? <;> rfl

theorem dropInertState_setGpioLevel (s : State) (k : Nat) (p : Fin 64) (b : Bool) :
    dropInertState (s.setGpioLevel k p b) = (dropInertState s).setGpioLevel k p b := by
  unfold State.setGpioLevel
  rw [gpioWire_dropInertState]
  cases s.gpioWire k p with
  | none => rfl
  | some w =>
    by_cases hb : b = w.level
    · simp only [hb, if_true]
    · simp only [hb, if_false, dropInertState_deliverAll, dropInertState_setGpioWire]

theorem dropInertState_setButtonLevel (s : State) (k : Nat) (b : Bool) :
    dropInertState (s.setButtonLevel k b) = (dropInertState s).setButtonLevel k b := by
  have hw : (dropInertState s).buttonWire k = s.buttonWire k := rfl
  unfold State.setButtonLevel
  rw [hw]
  cases s.buttonWire k with
  | none => rfl
  | some w =>
    by_cases hb : b = w.level
    · simp only [hb, if_true]
    · simp only [hb, if_false, dropInertState_deliverAll]
      rfl

theorem dropInertState_updatePin (k : Nat) (changed : Word) (s : State) (q : Fin 16) :
    dropInertState (s.updatePin k changed q) = (dropInertState s).updatePin k changed q := by
  unfold State.updatePin
  rw [dropInertState_gpios, List.getElem?_map]
  cases s.gpios[k]? with
  | none => rfl
  | some g =>
    have hgate : (dropInert g).outEnabled q = g.outEnabled q := rfl
    have hodr : (dropInert g).odr = g.odr := rfl
    simp only [Option.map_some, hgate, hodr]
    split
    · exact dropInertState_setGpioLevel ..
    · rfl

theorem dropInertState_updatePins (k : Nat) (changed : Word) (ps : List (Fin 16)) (s : State) :
    dropInertState (ps.foldl (State.updatePin k changed) s) =
      ps.foldl (State.updatePin k changed) (dropInertState s) := by
  induction ps generalizing s with
  | nil => rfl
  | cons q ps ih => rw [List.foldl_cons, ih, dropInertState_updatePin, List.foldl_cons]

/-- The update algorithm neither reads nor writes an inert register (R79). -/
theorem dropInertState_update (s : State) (k : Nat) :
    dropInertState (s.update k) = (dropInertState s).update k := by
  unfold State.update
  rw [dropInertState_gpios, List.getElem?_map]
  cases s.gpios[k]? with
  | none => rfl
  | some g =>
    have hchanged : (dropInert g).changed = g.changed := rfl
    rw [Option.map_some]
    simp only [hchanged]
    rw [← dropInertState_updatePins]
    exact dropInertState_modifyGpio_of_commutes _ k fun _ => rfl

/-! ### Requests -/

theorem onGpio_ignoresInert {f : State → Gpio → Result}
    (h : ∀ s g, dropInertResult (f s g) = dropInertResult (f (dropInertState s) (dropInert g))) :
    IgnoresInert fun s => s.onGpio k (f s) := by
  intro s
  simp only [State.onGpio, dropInertState_gpios, List.getElem?_map]
  cases s.gpios[k]? with
  | none => rfl
  | some g => exact h s g

theorem onCsr_ignoresInert {f : State → CsrBank → Result} (h : ∀ b, IgnoresInert fun s => f s b) :
    IgnoresInert fun s => s.onCsr k (f s) := by
  intro s
  simp only [State.onCsr, dropInertState_csrs]
  cases s.csrs[k]? with
  | none => rfl
  | some b => exact h b s

theorem onButton_ignoresInert {f : State → Button → Result} (h : ∀ u, IgnoresInert fun s => f s u) :
    IgnoresInert fun s => s.onButton k (f s) := by
  intro s
  simp only [State.onButton, dropInertState_buttons]
  cases s.buttons[k]? with
  | none => rfl
  | some u => exact h u s

theorem onLed_ignoresInert {f : State → Led → Result} (h : ∀ l, IgnoresInert fun s => f s l) :
    IgnoresInert fun s => s.onLed k (f s) := by
  intro s
  simp only [State.onLed, dropInertState_leds]
  cases s.leds[k]? with
  | none => rfl
  | some l => exact h l s

/-- What completes with states that agree but for the inert registers answers alike, replies aside. -/
theorem dropInertResult_next {t t' : State} (h : dropInertState t = dropInertState t') (r r' : Reply) :
    dropInertResult (.next (t.answer r)) = dropInertResult (.next (t'.answer r')) :=
  congrArg Host.Outcome.next h

/-- A request that only answers. -/
theorem dropInertResult_answer (s : State) (r r' : Reply) :
    dropInertResult (.next (s.answer r)) = dropInertResult (.next ((dropInertState s).answer r')) :=
  dropInertResult_next (dropInertState_dropInertState s).symm r r'

/-- A request whose outcome commutes with dropping the inert registers. -/
theorem dropInertResult_of_commutes {op : State → State}
    (h : ∀ s, dropInertState (op s) = op (dropInertState s)) (s : State) :
    dropInertResult (.next ((op s).answer .done)) =
      dropInertResult (.next ((op (dropInertState s)).answer .done)) :=
  dropInertResult_next (by rw [h, h, dropInertState_dropInertState]) _ _

theorem readGpio_ignoresInert (r : GpioReg) (k : Nat) (n : Width) : IgnoresInert (readGpio r k n) :=
  onGpio_ignoresInert fun s _ => dropInertResult_answer s _ _

theorem readCsr_ignoresInert (m : Fin 14) (k : Nat) (n : Width) : IgnoresInert (readCsr m k n) :=
  onCsr_ignoresInert fun _ s => dropInertResult_answer s _ _

theorem writeGpio_ignoresInert {f : State → Gpio → Gpio} (hcfg : ∀ s, f (dropInertState s) = f s)
    (h : ∀ s g, dropInert (f s g) = dropInert (f s (dropInert g))) :
    IgnoresInert fun s => writeGpio k s (f s) :=
  onGpio_ignoresInert fun s _ => by
    rw [hcfg]
    exact dropInertResult_next (dropInertState_modifyGpio_of_respects s k (h s)) _ _

theorem writeOutput_ignoresInert {f : State → Gpio → Gpio} (hcfg : ∀ s, f (dropInertState s) = f s)
    (h : ∀ s g, dropInert (f s g) = dropInert (f s (dropInert g))) :
    IgnoresInert fun s => writeOutput k s (f s) :=
  onGpio_ignoresInert fun s _ => by
    rw [hcfg]
    refine dropInertResult_next ?_ _ _
    rw [dropInertState_update, dropInertState_modifyGpio_of_respects s k (h s), dropInertState_update]

theorem writeCsr_ignoresInert (m : Fin 14) (k : Nat) (v : BusVal) : IgnoresInert (writeCsr m k v) :=
  onCsr_ignoresInert fun _ => dropInertResult_of_commutes fun _ => rfl

/-- A request that asks for one more device. -/
theorem ite_hasDevice_ignoresInert {op : State → Result} (d : DevRef) (h : IgnoresInert op) :
    IgnoresInert fun s => if s.hasDevice d then op s else .refused (.noSuchDevice d) := by
  intro s
  simp only [hasDevice_dropInertState]
  split
  · exact h s
  · rfl

theorem invalidAccess_ignoresInert (kind : AccessKind) (dev : DevRef) (off : BitVec 16) :
    IgnoresInert (invalidAccess kind dev off) :=
  ite_hasDevice_ignoresInert dev fun s => by
    simp [dropInertResult, dropInertState, State.raiseInvalidOffset, Function.comp_def]

theorem execSave_ignoresInert (dev : DevRef) : IgnoresInert (execSave dev) := by
  obtain ⟨c, k⟩ := dev
  cases c with
  | gpio => exact onGpio_ignoresInert fun s _ => dropInertResult_answer s _ _
  | csr => exact onCsr_ignoresInert fun _ s => dropInertResult_answer s _ _
  | button => exact onButton_ignoresInert fun _ s => dropInertResult_answer s _ _
  | led => exact onLed_ignoresInert fun _ s => dropInertResult_answer s _ _

theorem execConnectGpio_ignoresInert (k : Nat) (p : Fin 64) (sink : Sink) :
    IgnoresInert (execConnectGpio k p sink) :=
  onGpio_ignoresInert fun s _ =>
    ite_hasDevice_ignoresInert (sinkDev sink)
      (dropInertResult_of_commutes
        (op := fun s => s.setGpioWire k p (connectWire (s.gpioWire k p) sink)) fun s => by
          rw [dropInertState_setGpioWire, gpioWire_dropInertState]) s

theorem execConnectButton_ignoresInert (k : Nat) (sink : Sink) :
    IgnoresInert (execConnectButton k sink) :=
  onButton_ignoresInert fun _ =>
    ite_hasDevice_ignoresInert (sinkDev sink) (dropInertResult_of_commutes fun _ => rfl)

theorem execByteInButton_ignoresInert (k : Nat) (x : Byte) : IgnoresInert (execByteInButton k x) :=
  onButton_ignoresInert fun _ => dropInertResult_of_commutes fun s => by
    rw [dropInertState_setButtonLevel, dropInertState_modifyButton]

/-! ### RESTORE (R136) -/

/-- Whether a record is accepted for a field does not depend on the field's present value; its new value
may, where the record leaves the field out. -/
theorem map_restoreWord_bind {β γ : Type} {d : β → γ} {p : Params} {c : DevClass} {fields : Record}
    {f : SnapField} {cur cur' : Word} {next next' : Word → Option β}
    (h : ∀ w w', (next w).map d = (next' w').map d) :
    ((restoreWord p c fields f cur).bind next).map d =
      ((restoreWord p c fields f cur').bind next').map d := by
  unfold restoreWord
  cases findField fields f 32 with
  | some e => exact h _ _
  | none =>
    cases mayBeAbsent p c f with
    | true => exact h _ _
    | false => rfl

theorem map_bind_congr {α β γ : Type} {d : β → γ} {o : Option α} {next next' : α → Option β}
    (h : ∀ a, (next a).map d = (next' a).map d) : (o.bind next).map d = (o.bind next').map d := by
  cases o with
  | none => rfl
  | some a => exact h a

/-- A restored controller, its inert registers aside, does not depend on them. -/
theorem map_dropInert_restore (p : Params) (fields : Record) (g : Gpio) :
    (Gpio.restore p fields g).map dropInert =
      (Gpio.restore p fields (dropInert g)).map dropInert :=
  map_bind_congr fun _mode =>
  map_restoreWord_bind fun _otype _otype' =>
  map_restoreWord_bind fun _ospeed _ospeed' =>
  map_bind_congr fun _pupd =>
  map_bind_congr fun _idr =>
  map_bind_congr fun _odr =>
  map_bind_congr fun _odrOld =>
  map_restoreWord_bind fun _bsr _bsr' =>
  map_restoreWord_bind fun _lck _lck' =>
  map_restoreWord_bind fun _afrl _afrl' =>
  map_restoreWord_bind fun _afrh _afrh' => rfl

/-- RESTORE puts in place what the device makes of the record: if both devices refuse it, or both accept
it and the states are then alike, so are the answers. -/
theorem accepted_map_congr {α β : Type} {d : α → β} {o o' : Option α} {put put' : α → State}
    (ho : o.map d = o'.map d)
    (h : ∀ a a', d a = d a' → dropInertState (put a) = dropInertState (put' a')) :
    dropInertResult (accepted (o.map put)) = dropInertResult (accepted (o'.map put')) := by
  cases o with
  | none =>
    cases o' with
    | none => rfl
    | some a' => cases ho
  | some a =>
    cases o' with
    | none => cases ho
    | some a' => exact dropInertResult_next (h a a' (Option.some.inj ho)) .done .done

/-- Putting a restored device in place, for the devices that have no inert register. -/
theorem accepted_map_ignoresInert {α : Type} (o : Option α) (put : State → α → State)
    (h : ∀ s a, dropInertState (put s a) = put (dropInertState s) a) :
    IgnoresInert fun s => accepted (o.map (put s)) := fun s =>
  accepted_map_congr (d := id) rfl fun a a' (e : a = a') => by
    rw [e, h, h, dropInertState_dropInertState]

theorem execRestore_ignoresInert (dev : DevRef) (fields : Record) :
    IgnoresInert (execRestore dev fields) := by
  obtain ⟨c, k⟩ := dev
  cases c with
  | gpio =>
    exact onGpio_ignoresInert fun s g => accepted_map_congr (map_dropInert_restore s.cfg fields g)
      fun _ _ h => dropInertState_modifyGpio_of_respects s k fun _ => h
  | csr =>
    exact onCsr_ignoresInert fun b s => accepted_map_ignoresInert (CsrBank.restore s.cfg fields b)
      (fun s b' => s.modifyCsr k fun _ => b') (fun _ _ => rfl) s
  | button =>
    exact onButton_ignoresInert fun u s => accepted_map_ignoresInert (Button.restore s.cfg fields u)
      (fun s u' => s.modifyButton k fun _ => u') (fun _ _ => rfl) s
  | led =>
    exact onLed_ignoresInert fun l s => accepted_map_ignoresInert (Led.restore s.cfg fields l)
      (fun s l' => s.modifyLed k fun _ => l') (fun _ _ => rfl) s

/-- No request depends on an inert register. The cases are grouped by the shared operation. -/
theorem exec_ignoresInert (i : Instr) : IgnoresInert (exec i) := by
  cases i with
  | gpioRdMode | gpioRdOtype | gpioRdOspeed | gpioRdPupd | gpioRdIdr | gpioRdOdr | gpioRdBsrr
  | gpioRdLck | gpioRdAfrl | gpioRdAfrh => exact readGpio_ignoresInert _ _ _
  | gpioWrMode | gpioWrOtype | gpioWrOspeed | gpioWrPupd | gpioWrLck | gpioWrAfrl | gpioWrAfrh =>
    exact writeGpio_ignoresInert (fun _ => rfl) fun _ _ => rfl
  | gpioWrIdr => exact onGpio_ignoresInert fun s _ => dropInertResult_answer s _ _
  | gpioWrOdr | gpioWrBsrr => exact writeOutput_ignoresInert (fun _ => rfl) fun _ _ => rfl
  | csrRdReg0 | csrRdReg1 | csrRdReg2 | csrRdReg3 | csrRdReg4 | csrRdReg5 | csrRdReg6 | csrRdReg7
  | csrRdReg8 | csrRdReg9 | csrRdReg10 | csrRdReg11 | csrRdReg12 | csrRdReg13 =>
    exact readCsr_ignoresInert _ _ _
  | csrWrReg0 | csrWrReg1 | csrWrReg2 | csrWrReg3 | csrWrReg4 | csrWrReg5 | csrWrReg6 | csrWrReg7
  | csrWrReg8 | csrWrReg9 | csrWrReg10 | csrWrReg11 | csrWrReg12 | csrWrReg13 =>
    exact writeCsr_ignoresInert _ _ _
  | busBadwidth kind dev off => exact invalidAccess_ignoresInert kind dev off
  | busInvalidOffset kind wc dev off => exact invalidAccess_ignoresInert kind dev off
  | resetGpio k =>
    exact onGpio_ignoresInert fun s _ => dropInertResult_next
      (dropInertState_modifyGpio_of_respects s k (f' := Gpio.reset s.cfg) fun _ => rfl) _ _
  | resetCsr => exact onCsr_ignoresInert fun _ => dropInertResult_of_commutes fun _ => rfl
  | resetButton => exact onButton_ignoresInert fun _ => dropInertResult_of_commutes fun _ => rfl
  | resetLed => exact onLed_ignoresInert fun _ => dropInertResult_of_commutes fun _ => rfl
  | pinInGpio k pin b =>
    exact onGpio_ignoresInert fun s _ => dropInertResult_of_commutes
      (op := fun s => s.deliver (.gpio k pin) b) (fun s => dropInertState_deliver s _ b) s
  | pinInLed k b =>
    exact onLed_ignoresInert fun _ => dropInertResult_of_commutes fun s =>
      dropInertState_deliver s (.led k) b
  | connectGpio k p sink => exact execConnectGpio_ignoresInert k p sink
  | connectButton k sink => exact execConnectButton_ignoresInert k sink
  | byteInButton k x => exact execByteInButton_ignoresInert k x
  | save dev => exact execSave_ignoresInert dev
  | restore dev fields => exact execRestore_ignoresInert dev fields

end inert

/-- An answer that agrees with a completed one but for the inert registers and the reply is completed. -/
theorem eq_next_of_dropInertResult {r : Result} {t : State}
    (h : dropInertResult (.next t) = dropInertResult r) :
    ∃ t', r = .next t' ∧ dropInertState t = dropInertState t' := by
  cases r with
  | next t' => exact ⟨t', rfl, Host.Outcome.next.inj h⟩
  | fault => cases h
  | refused => cases h

/-- Settles O47: both states answer as the state without their inert registers does. -/
theorem inertRegistersAffectNothingElse : Obligations.InertRegistersAffectNothingElse := by
  unfold Obligations.InertRegistersAffectNothingElse
  intro i s s' t hs h
  apply eq_next_of_dropInertResult
  calc dropInertResult (.next t)
    _ = dropInertResult (exec i s) := by rw [h]
    _ = dropInertResult (exec i (dropInertState s)) := exec_ignoresInert i s
    _ = dropInertResult (exec i (dropInertState s')) := by rw [hs]
    _ = dropInertResult (exec i s') := (exec_ignoresInert i s').symm

end Sys2Proof.Machine
end

section
/-! # Memory (spec/20_memory.md): the address map, the byte view of a read, and what a register write
keeps. -/

namespace Sys2Proof.Machine

open Sys2Proof.Config Sys2Proof.Claims

/-! ### The address map (R40) -/

theorem State.mem_devices_iff (s : State) (d : DevRef) : d ∈ s.devices ↔ s.hasDevice d = true := by
  obtain ⟨c, k⟩ := d
  cases c <;> simp [State.devices, State.hasDevice]

/-- Only a device of the system has a region. -/
theorem State.hasDevice_of_placeOf {s : State} {d : DevRef} {p : Placement}
    (h : s.placeOf d = some p) : s.hasDevice d = true := by
  obtain ⟨c, k⟩ := d
  cases c with
  | gpio =>
    obtain ⟨g, hg, _⟩ := Option.map_eq_some_iff.mp h
    exact (s.hasDevice_gpio k).mpr ⟨g, hg⟩
  | csr =>
    obtain ⟨b, hb, _⟩ := Option.map_eq_some_iff.mp h
    exact (s.hasDevice_csr k).mpr ⟨b, hb⟩
  | button =>
    obtain ⟨u, hu, _⟩ := Option.map_eq_some_iff.mp h
    exact (s.hasDevice_button k).mpr ⟨u, hu⟩
  | led =>
    obtain ⟨l, hl, _⟩ := Option.map_eq_some_iff.mp h
    exact (s.hasDevice_led k).mpr ⟨l, hl⟩

/-- An address reaches a device exactly if it lies in the device's region. -/
theorem State.offsetIn_eq_some_iff {s : State} {a : Nat} {d : DevRef} {x : DevRef × Nat} :
    s.offsetIn a d = some x ↔
      ∃ p, s.placeOf d = some p ∧ (p.base ≤ a ∧ a < p.base + p.size) ∧ x = (d, a - p.base) := by
  unfold State.offsetIn
  cases s.placeOf d with
  | none => simp
  | some p => simp [inRegion, eq_comm (a := x)]

/-- A search finds the one entry that answers. -/
theorem findSome?_eq_of_unique {α β : Type} {l : List α} {f : α → Option β} {a : α} {b : β}
    (ha : a ∈ l) (hf : f a = some b) (huniq : ∀ a' b', f a' = some b' → a' = a) :
    l.findSome? f = some b := by
  cases hl : l.findSome? f with
  | none => rw [List.findSome?_eq_none_iff.mp hl a ha] at hf; cases hf
  | some c =>
    obtain ⟨a', _, hc⟩ := List.exists_of_findSome?_eq_some hl
    rw [huniq a' c hc, hf] at hc
    exact hc.symm

/-- Settles O51: the search over the devices finds the one whose region holds the address, or none. -/
theorem busAddressesReachTheirDevice : Obligations.BusAddressesReachTheirDevice := by
  unfold Obligations.BusAddressesReachTheirDevice
  intro s a
  constructor
  · intro d p hp hbase hend hothers
    have hmem : d ∈ s.devices := (s.mem_devices_iff d).mpr (State.hasDevice_of_placeOf hp)
    refine findSome?_eq_of_unique hmem
      (State.offsetIn_eq_some_iff.mpr ⟨p, hp, ⟨hbase, hend⟩, rfl⟩) fun d' x hx => ?_
    obtain ⟨p', hp', hin, _⟩ := State.offsetIn_eq_some_iff.mp hx
    by_contra hne
    exact hothers d' p' hp' hne hin
  · intro hnone
    refine List.findSome?_eq_none_iff.mpr fun d _ => Option.eq_none_iff_forall_ne_some.mpr ?_
    intro x hx
    obtain ⟨p, hp, hin, _⟩ := State.offsetIn_eq_some_iff.mp hx
    exact hnone d p hp hin

/-! ### The registers' requests (R38, R39) -/

/-- The read request of a GPIO register. -/
def gpioReadInstr (r : GpioReg) : Nat → Width → Instr :=
  match r with
  | .MODE => .gpioRdMode
  | .OTYPE => .gpioRdOtype
  | .OSPEED => .gpioRdOspeed
  | .PUPD => .gpioRdPupd
  | .IDR => .gpioRdIdr
  | .ODR => .gpioRdOdr
  | .BSRR => .gpioRdBsrr
  | .LCK => .gpioRdLck
  | .AFRL => .gpioRdAfrl
  | .AFRH => .gpioRdAfrh

/-- The write request of a GPIO register. -/
def gpioWriteInstr (r : GpioReg) : Nat → BusVal → Instr :=
  match r with
  | .MODE => .gpioWrMode
  | .OTYPE => .gpioWrOtype
  | .OSPEED => .gpioWrOspeed
  | .PUPD => .gpioWrPupd
  | .IDR => .gpioWrIdr
  | .ODR => .gpioWrOdr
  | .BSRR => .gpioWrBsrr
  | .LCK => .gpioWrLck
  | .AFRL => .gpioWrAfrl
  | .AFRH => .gpioWrAfrh

/-- The writes of R83 and R85, which run the update algorithm. -/
def isOutputReg (r : GpioReg) : Bool := r == .ODR || r == .BSRR

/-- What a write of register `r` makes of a controller's registers, before the update algorithm (R65 to
R85): IDR ignores it and BSRR changes ODR. -/
def Gpio.store (g : Gpio) (nw : NarrowWrite) (r : GpioReg) (v : BusVal) : Gpio :=
  match r with
  | .MODE => { g with mode := eff nw g.mode v }
  | .OTYPE => { g with otype := eff nw g.otype v }
  | .OSPEED => { g with ospeed := eff nw g.ospeed v }
  | .PUPD => { g with pupd := eff nw g.pupd v }
  | .IDR => g
  | .ODR => { g with odr := eff nw g.odr v }
  | .BSRR => { g with bsr := v.zext, odr := (g.odr ||| bsrrSet v.zext) &&& ~~~(bsrrReset v.zext) }
  | .LCK => { g with lck := eff nw g.lck v }
  | .AFRL => { g with afrl := eff nw g.afrl v }
  | .AFRH => { g with afrh := eff nw g.afrh v }

theorem exec_gpioReadInstr (r : GpioReg) (k : Nat) (n : Width) (s : State) :
    exec (gpioReadInstr r k n) s = readGpio r k n s := by
  cases r <;> rfl

/-- Every write of a GPIO register stores, and those of ODR and BSRR drive the wires besides. -/
theorem exec_gpioWriteInstr (r : GpioReg) (k : Nat) (v : BusVal) (s : State) :
    exec (gpioWriteInstr r k v) s =
      if isOutputReg r then writeOutput k s fun g => g.store s.cfg.narrowWrite r v
      else writeGpio k s fun g => g.store s.cfg.narrowWrite r v := by
  cases r
  case IDR =>
    have hid : s.modifyGpio k (fun g => g) = s := by
      rw [State.modifyGpio]
      exact congrArg (fun l => { s with gpios := l }) (List.modify_id ..)
    show s.onGpio k (fun _ => .next (s.answer .done)) =
      s.onGpio k fun _ => .next ((s.modifyGpio k fun g => g).answer .done)
    rw [hid]
  all_goals rfl

/-- The register at an offset of DEF_GPIO is the one the byte view finds there. -/
theorem gpioOffset_eq_four_mul (r : GpioReg) :
    ∃ j, (gpioOffset r).toNat = 4 * j ∧ gpioRegs[j]? = some r := by
  refine ⟨(gpioOffset r).toNat / 4, ?_, ?_⟩ <;> cases r <;> rfl

theorem gpioOffset_injective : Function.Injective gpioOffset := by
  intro r r' h
  obtain ⟨j, hj, hr⟩ := gpioOffset_eq_four_mul r
  obtain ⟨j', hj', hr'⟩ := gpioOffset_eq_four_mul r'
  obtain rfl : j = j' := by rw [h] at hj; omega
  exact Option.some.inj (hr.symm.trans hr')

/-- The rows of the ten read rules are the reads of the ten registers. -/
theorem gpioReads_register {row : GpioRead} (h : row ∈ gpioReads) :
    ∃ r, row.off = gpioOffset r ∧ row.instr = gpioReadInstr r := by
  have hrows : gpioReads.map (fun row => (row.off, row.instr)) =
      gpioRegs.map fun r => (gpioOffset r, gpioReadInstr r) := rfl
  have hmem := List.mem_map_of_mem (f := fun row : GpioRead => (row.off, row.instr)) h
  rw [hrows] at hmem
  obtain ⟨r, _, hr⟩ := List.mem_map.mp hmem
  obtain ⟨hoff, hinstr⟩ := Prod.mk.inj hr
  exact ⟨r, hoff.symm, hinstr.symm⟩

/-- The rows of the register writes but BSRR's are the writes of nine registers. -/
theorem gpioWrites_register {row : BitVec 16 × (Nat → BusVal → Instr)} (h : row ∈ gpioWrites) :
    ∃ r, row = (gpioOffset r, gpioWriteInstr r) := by
  have hrows : gpioWrites =
      [GpioReg.MODE, .OTYPE, .OSPEED, .PUPD, .LCK, .AFRL, .AFRH, .IDR, .ODR].map
        fun r => (gpioOffset r, gpioWriteInstr r) := rfl
  rw [hrows] at h
  obtain ⟨r, _, hr⟩ := List.mem_map.mp h
  exact ⟨r, hr.symm⟩

theorem exec_csrRead {row : CsrReg} (h : row ∈ csrRegs) (k : Nat) (n : Width) (s : State) :
    exec (row.read k n) s = readCsr row.m k n s := by
  fin_cases h <;> rfl

theorem exec_csrWrite {row : CsrReg} (h : row ∈ csrRegs) (k : Nat) (v : BusVal) (s : State) :
    exec (row.write k v) s = writeCsr row.m k v s := by
  fin_cases h <;> rfl

/-- A register write is a write of one of the ten GPIO registers or of one of the 14 CSR registers. -/
theorem isRegisterWrite_cases {i : Instr} (h : isRegisterWrite i) :
    (∃ r k v, i = gpioWriteInstr r k v) ∨ ∃ row ∈ csrRegs, ∃ k v, i = row.write k v := by
  obtain ⟨row, hrow, k, v, rfl⟩ | ⟨k, v, hi⟩ | hcsr := h
  · have hmem : (row.off, row.instr) ∈ gpioWrites :=
      List.mem_append_left _ (List.mem_map_of_mem (f := fun row => (row.off, row.instr)) hrow)
    obtain ⟨r, hr⟩ := gpioWrites_register hmem
    exact .inl ⟨r, k, v, congrFun (congrFun (Prod.mk.inj hr).2 k) v⟩
  · obtain rfl | rfl | rfl := hi
    · exact .inl ⟨.IDR, k, v, rfl⟩
    · exact .inl ⟨.ODR, k, v, rfl⟩
    · exact .inl ⟨.BSRR, k, v, rfl⟩
  · exact .inr hcsr

/-! ### Reads and the byte view (R43, R44) -/

section reads

variable {s t : State} {k : Nat} {n : Width}

theorem readGpio_eq_next {r : GpioReg} (h : readGpio r k n s = .next t) :
    ∃ g, s.gpios[k]? = some g ∧ t = s.answer (.value (BusVal.ofWord n (g.readReg r))) := by
  obtain ⟨g, hg, e⟩ | ⟨_, e⟩ := s.onGpio_cases k fun g =>
    .next (s.answer (.value (BusVal.ofWord n (g.readReg r))))
  · rw [readGpio, e] at h; cases h; exact ⟨g, hg, rfl⟩
  · rw [readGpio, e] at h; cases h

theorem readCsr_eq_next {m : Fin 14} (h : readCsr m k n s = .next t) :
    ∃ b, s.csrs[k]? = some b ∧ t = s.answer (.value (BusVal.ofWord n b.regs[m])) := by
  obtain ⟨b, hb, e⟩ | ⟨_, e⟩ := s.onCsr_cases k fun b =>
    .next (s.answer (.value (BusVal.ofWord n b.regs[m])))
  · rw [readCsr, e] at h; cases h; exact ⟨b, hb, rfl⟩
  · rw [readCsr, e] at h; cases h

/-- The bytes of the value that a read of the word at `4i` answers are the bytes from `4i` on. -/
theorem State.readByte_of_read {d : DevRef} {i j : Nat} {w : Word} (h : s.readWord d i = some w)
    (hj : j < n.bytes) :
    ∃ b : Byte, s.readByte d (4 * i + j) = some b ∧
      b.toNat = (BusVal.ofWord n w).zext.toNat / 256 ^ j % 256 := by
  have hn : n.bytes ≤ 4 := by cases n <;> decide
  exact ⟨_, State.readByte_of_word h (by omega), extractLsb'_eq_byte_of_busVal n w hj⟩

end reads

/-- Settles O12: a register read answers the low bytes of the word that the byte view is made from. -/
theorem readBytesAreLittleEndian : Obligations.ReadBytesAreLittleEndian := by
  unfold Obligations.ReadBytesAreLittleEndian
  constructor
  · intro row hrow k n s t v j h hv hj
    obtain ⟨r, hoff, hinstr⟩ := gpioReads_register hrow
    obtain ⟨i, hi, hr⟩ := gpioOffset_eq_four_mul r
    rw [hinstr, exec_gpioReadInstr] at h
    obtain ⟨g, hg, rfl⟩ := readGpio_eq_next h
    cases hv
    rw [hoff, hi]
    exact State.readByte_of_read (State.readWord_gpio hg hr) hj
  · intro row hrow k n s t v j h hv hj
    rw [exec_csrRead hrow] at h
    obtain ⟨b, hb, rfl⟩ := readCsr_eq_next h
    cases hv
    exact State.readByte_of_read (State.readWord_csr hb row.m) hj

/-! ### What a register holds after a write (R45) -/

/-- A bus value of `n` bytes has the word's low `8n` bits alone (R44). -/
theorem ofWord_congr {n : Width} {w w' : Word}
    (h : ∀ j, j < 8 * n.bytes → w.getLsbD j = w'.getLsbD j) :
    BusVal.ofWord n w = BusVal.ofWord n w' := by
  have hsetWidth : w.setWidth (8 * n.bytes) = w'.setWidth (8 * n.bytes) :=
    BitVec.eq_of_getLsbD_eq fun j hj => by simp [hj, h j hj]
  cases n with
  | w1 => exact congrArg BusVal.b8 hsetWidth
  | w2 => exact congrArg BusVal.b16 hsetWidth
  | w4 => exact congrArg BusVal.b32 (by simpa [Width.bytes] using hsetWidth)

/-- A stored value is read back as it was written, whatever the register held above it. -/
theorem ofWord_eff (nw : NarrowWrite) (old : Word) (v : BusVal) :
    BusVal.ofWord v.width (eff nw old v) = v := by
  have hlow : BusVal.ofWord v.width (eff nw old v) = BusVal.ofWord v.width v.zext :=
    ofWord_congr fun j hj => by rw [eff_getLsbD, if_pos hj]
  rw [hlow, busVal_ofWord_zext]

/-- Storing what a register was read as leaves what it is read as. -/
theorem ofWord_eff_ofWord (nw : NarrowWrite) (n : Width) (old : Word) :
    BusVal.ofWord n (eff nw old (BusVal.ofWord n old)) = BusVal.ofWord n old := by
  simpa using ofWord_eff nw old (BusVal.ofWord n old)

/-- A write of a narrow value keeps the 2-bit fields above it under MERGE and clears them under
ZERO_EXTEND. -/
theorem field2_eff_of_le (nw : NarrowWrite) (old : Word) (v : BusVal) {i : Nat}
    (hi : 8 * v.width.bytes ≤ 2 * i) :
    field2 (eff nw old v) i = if nw = .merge then field2 old i else 0 := by
  have hpow : 4 ^ i = 2 ^ (8 * v.width.bytes) * 2 ^ (2 * i - 8 * v.width.bytes) := by
    rw [← Nat.pow_add, Nat.add_sub_cancel' hi, Nat.pow_mul]
  have hv := busVal_zext_lt v
  rw [field2, field2, eff_toNat, hpow]
  generalize 2 ^ (8 * v.width.bytes) = m at *
  rw [← Nat.div_div_eq_div_mul, ← Nat.div_div_eq_div_mul]
  cases nw with
  | zeroExtend => simp [Nat.div_eq_of_lt hv]
  | merge =>
    have hold : old.toNat - old.toNat % m + v.zext.toNat = m * (old.toNat / m) + v.zext.toNat := by
      have := Nat.div_add_mod old.toNat m
      omega
    simp only [if_true]
    rw [hold, Nat.mul_add_div (by omega), Nat.div_eq_of_lt hv, Nat.add_zero]

/-- Settles O21: pins 4 to 15 are the fields above the written byte. -/
theorem byteWriteOfModeAndTheOtherPins : Obligations.ByteWriteOfModeAndTheOtherPins := by
  unfold Obligations.ByteWriteOfModeAndTheOtherPins
  intro k x s g hg
  refine ⟨_, _, writeGpio_of_some hg _, getElem?_set_of_some hg _, fun i hi _ => ?_⟩
  exact field2_eff_of_le s.cfg.narrowWrite g.mode (.b8 x) (show 8 * 1 ≤ 2 * i by omega)

/-- Setting and then clearing bits a second time changes nothing (R85). -/
theorem setClear_setClear (w a b : Word) :
    (((w ||| a) &&& ~~~b) ||| a) &&& ~~~b = (w ||| a) &&& ~~~b := by
  apply BitVec.eq_of_getLsbD_eq
  intro j hj
  simp only [BitVec.getLsbD_and, BitVec.getLsbD_or]
  cases w.getLsbD j <;> cases a.getLsbD j <;> cases (~~~b).getLsbD j <;> rfl

/-- Storing a value that a controller already took changes nothing. -/
theorem Gpio.store_store (g : Gpio) (nw : NarrowWrite) (r : GpioReg) (v : BusVal) :
    (g.store nw r v).store nw r v = g.store nw r v := by
  cases r <;> simp [Gpio.store, setClear_setClear]

/-- A store of output data changes nothing where ODR and `bsr` are what the store makes them. -/
theorem Gpio.store_eq_self {g g' : Gpio} {nw : NarrowWrite} {r : GpioReg} {v : BusVal}
    (hr : isOutputReg r = true) (hodr : g'.odr = (g.store nw r v).odr)
    (hbsr : g'.bsr = (g.store nw r v).bsr) : g'.store nw r v = g' := by
  cases r
  case ODR =>
    simp only [Gpio.store] at hodr ⊢
    rw [hodr, eff_eff, ← hodr]
  case BSRR =>
    simp only [Gpio.store] at hodr hbsr ⊢
    rw [hodr, setClear_setClear, ← hodr, ← hbsr]
  all_goals cases hr

/-- The same of a GPIO register under its own read and write rules: IDR keeps its value, and BSRR reads
as 0. -/
theorem ofWord_readReg_store (g : Gpio) (nw : NarrowWrite) (r : GpioReg) (n : Width) :
    BusVal.ofWord n ((g.store nw r (BusVal.ofWord n (g.readReg r))).readReg r) =
      BusVal.ofWord n (g.readReg r) := by
  cases r
  case IDR => rfl
  case BSRR => rfl
  all_goals exact ofWord_eff_ofWord nw _ _

/-! ### What a register write leaves behind (R45, R79) -/

/-- What a controller is after a write of register `r` that set its registers to those of `g`. -/
inductive Gpio.Written (r : GpioReg) (g : Gpio) : Gpio → Prop where
  /-- The write only stores. -/
  | stored (h : isOutputReg r = false) : Written r g g
  /-- The update algorithm ran (R79), and its notifications may have come back. -/
  | updated (h : isOutputReg r = true) (outs : Vector (Option Wire) 64) (n : Nat)
      (ds : List Delivery) :
      Written r g (({ g with odrOld := g.odr, out := outs } : Gpio).receive n ds)

section writes

variable {s t : State} {k : Nat} {r : GpioReg} {v : BusVal} {nw : NarrowWrite} {g g' : Gpio}

@[simp] theorem Gpio.receive_bsr (n : Nat) (g : Gpio) (ds : List Delivery) :
    (g.receive n ds).bsr = g.bsr := by rw [Gpio.receive_eq]

/-- The write has settled: storing the value again changes nothing. -/
theorem Gpio.Written.store_eq_self (h : (g.store nw r v).Written r g') : g'.store nw r v = g' := by
  cases h with
  | stored _ => exact g.store_store nw r v
  | updated hr outs n ds =>
    exact Gpio.store_eq_self (g := g) hr (Gpio.receive_odr ..) (Gpio.receive_bsr ..)

/-- After an update ODR_old is ODR (R79). -/
theorem Gpio.Written.shadow_agrees (h : g.Written r g') (hr : isOutputReg r = true) :
    g'.odrOld = g'.odr := by
  cases h with
  | stored hno => rw [hr] at hno; cases hno
  | updated _ outs n ds => rw [Gpio.receive_odrOld, Gpio.receive_odr]

/-- The written register reads as it was stored: the notifications reach IDR alone. -/
theorem Gpio.Written.readReg_eq (h : g.Written r g') : g'.readReg r = g.readReg r := by
  cases h with
  | stored _ => rfl
  | updated hr outs n ds =>
    cases r
    case ODR => exact Gpio.receive_odr ..
    case BSRR => rfl
    all_goals cases hr

/-- What a write of a GPIO register can do. -/
theorem gpioWrite_cases (h : exec (gpioWriteInstr r k v) s = .next t) :
    ∃ g g', s.gpios[k]? = some g ∧ t.gpios[k]? = some g' ∧
      (g.store s.cfg.narrowWrite r v).Written r g' ∧ t.cfg = s.cfg ∧ t.reply = .done := by
  rw [exec_gpioWriteInstr] at h
  cases hg : s.gpios[k]? with
  | none => simp [writeOutput, writeGpio, State.onGpio, hg] at h
  | some g =>
    by_cases hr : isOutputReg r = true
    · rw [if_pos hr] at h
      obtain ⟨t', e, hd⟩ := writeOutput_driven hg fun g => g.store s.cfg.narrowWrite r v
      rw [e] at h
      cases h
      refine ⟨g, _, rfl, hd.self, .updated hr _ k _, ?_, rfl⟩
      rw [State.answer_cfg, hd.frame]
    · rw [if_neg hr, writeGpio_of_some hg] at h
      cases h
      exact ⟨g, _, rfl, getElem?_set_of_some hg _, .stored (Bool.eq_false_iff.mpr hr), rfl, rfl⟩

theorem State.answer_of_reply {a : Reply} (h : t.reply = a) : t.answer a = t := by
  subst h; rfl

/-- Changing a controller to what it is already changes nothing. -/
theorem State.modifyGpio_of_fixed {f : Gpio → Gpio} (hg : s.gpios[k]? = some g) (hf : f g = g) :
    s.modifyGpio k f = s := by
  rw [State.modifyGpio_of_some hg, hf, set_of_getElem?_eq hg]

/-- With ODR_old = ODR the update algorithm drives nothing (R79). -/
theorem State.update_of_shadow_agrees (hg : s.gpios[k]? = some g) (h : g.odrOld = g.odr) :
    s.update k = s := by
  have hpin : ∀ i, s.updatePin k g.changed i = s := by
    intro i
    simp [State.updatePin, hg, Gpio.changed, f1, h]
  rw [State.update, hg]
  show (pins.foldl (State.updatePin k g.changed) s).modifyGpio k _ = s
  rw [List.foldl_fixed' hpin]
  exact State.modifyGpio_of_fixed hg (congrArg (fun w => { g with odrOld := w }) h.symm)

/-- A write of a value that the controller already took does nothing. -/
theorem exec_gpioWrite_of_settled (hg : t.gpios[k]? = some g)
    (hstore : g.store t.cfg.narrowWrite r v = g)
    (hshadow : isOutputReg r = true → g.odrOld = g.odr) (hreply : t.reply = .done) :
    exec (gpioWriteInstr r k v) t = .next t := by
  have hmodify : t.modifyGpio k (fun g => g.store t.cfg.narrowWrite r v) = t :=
    State.modifyGpio_of_fixed hg hstore
  rw [exec_gpioWriteInstr]
  split
  next hr =>
    rw [writeOutput, State.onGpio_of_some hg, hmodify,
      State.update_of_shadow_agrees hg (hshadow hr), State.answer_of_reply hreply]
  next =>
    rw [writeGpio, State.onGpio_of_some hg, hmodify, State.answer_of_reply hreply]

/-- What a write of a CSR register can do (R89). -/
theorem writeCsr_eq_next {m : Fin 14} (h : writeCsr m k v s = .next t) :
    ∃ b, s.csrs[k]? = some b ∧ t = { s with
      csrs := s.csrs.set k { b with regs := b.regs.set m.val (eff s.cfg.narrowWrite b.regs[m] v) }
      reply := .done } := by
  cases hb : s.csrs[k]? with
  | some b =>
    rw [writeCsr_of_some hb] at h
    cases h
    exact ⟨b, rfl, rfl⟩
  | none => simp [writeCsr, State.onCsr, hb] at h

/-- A second write of a CSR register stores what the first one stored. -/
theorem writeCsr_idempotent {m : Fin 14} (h : writeCsr m k v s = .next t) :
    writeCsr m k v t = .next t := by
  obtain ⟨b, hb, rfl⟩ := writeCsr_eq_next h
  rw [writeCsr_of_some (getElem?_set_of_some hb _)]
  simp

end writes

/-- Settles O19: the first write settles the register, so the second finds nothing to change and no pin
to drive. -/
theorem registerWritesAreIdempotent : Obligations.RegisterWritesAreIdempotent := by
  unfold Obligations.RegisterWritesAreIdempotent
  intro i s t hi h
  obtain ⟨r, k, v, rfl⟩ | ⟨row, hrow, k, v, rfl⟩ := isRegisterWrite_cases hi
  · obtain ⟨g, g', _, hg', hw, hcfg, hreply⟩ := gpioWrite_cases h
    exact exec_gpioWrite_of_settled hg' (hcfg ▸ hw.store_eq_self) hw.shadow_agrees hreply
  · rw [exec_csrWrite hrow] at h ⊢
    exact writeCsr_idempotent h

/-- Settles O20: a register is read as the value last stored in its low bytes. -/
theorem readWriteReadRoundTrips : Obligations.ReadWriteReadRoundTrips := by
  unfold Obligations.ReadWriteReadRoundTrips
  constructor
  · intro rd hrd wr hwr hoff k n s s1 s2 v h1 hv h2
    obtain ⟨r, hr, hread⟩ := gpioReads_register hrd
    obtain ⟨r', rfl⟩ := gpioWrites_register hwr
    obtain rfl : r = r' := gpioOffset_injective (hr.symm.trans hoff)
    rw [hread, exec_gpioReadInstr] at h1 ⊢
    obtain ⟨g, hg, rfl⟩ := readGpio_eq_next h1
    cases hv
    obtain ⟨g1, g2, hg1, hg2, hw, _⟩ := gpioWrite_cases h2
    obtain rfl : g = g1 := Option.some.inj (hg.symm.trans hg1)
    rw [readGpio_of_some hg2, hw.readReg_eq, ofWord_readReg_store]
    rfl
  · intro row hrow k n s s1 s2 v h1 hv h2
    rw [exec_csrRead hrow] at h1 ⊢
    rw [exec_csrWrite hrow] at h2
    obtain ⟨b, hb, rfl⟩ := readCsr_eq_next h1
    cases hv
    obtain ⟨b1, hb1, rfl⟩ := writeCsr_eq_next h2
    obtain rfl : b = b1 := Option.some.inj (hb.symm.trans hb1)
    rw [readCsr_of_some (getElem?_set_of_some hb1 _)]
    simp only [Fin.getElem_fin, Vector.getElem_set_self, ofWord_eff_ofWord]
    rfl

end Sys2Proof.Machine
end

section
/-! # Encoding (spec/30_encoding.md): the decoder and the encoder agree, the order of R58, and the
refusals of R60. -/

namespace Sys2Proof

open Sys2Proof.Claims

/-! ### The descriptor a request presents (R54) -/

/-- The request's word is the descriptor of the given fields, and it goes to the given device. -/
structure Request.Presents (r : Request) (k : BitVec 4) (wc : BitVec 2) (dev : DevRef)
    (a : BitVec 16) : Prop where
  word : r.word = mkWord k wc dev.cls.bits 0#8 a
  dev_eq : r.dev = dev

section presents

variable {r r' : Request} {k : BitVec 4} {wc : BitVec 2} {dev : DevRef} {a : BitVec 16}

theorem Request.Presents.kindBits (h : r.Presents k wc dev a) : r.kindBits = k := by
  rw [Request.kindBits, h.word, mkWord_kind]

theorem Request.Presents.wcBits (h : r.Presents k wc dev a) : r.wcBits = wc := by
  rw [Request.wcBits, h.word, mkWord_wc]

theorem Request.Presents.clsBits (h : r.Presents k wc dev a) : r.clsBits = r.dev.cls.bits := by
  rw [Request.clsBits, h.word, mkWord_cls, h.dev_eq]

theorem Request.Presents.zBits (h : r.Presents k wc dev a) : r.zBits = 0#8 := by
  rw [Request.zBits, h.word, mkWord_z]

theorem Request.Presents.argBits (h : r.Presents k wc dev a) : r.argBits = a := by
  rw [Request.argBits, h.word, mkWord_arg]

/-- A request whose reserved bits and class code are in order presents its own fields. -/
theorem Request.presents_of_fields (hz : r.zBits = 0#8) (hc : r.clsBits = r.dev.cls.bits) :
    r.Presents r.kindBits r.wcBits r.dev r.argBits :=
  ⟨by rw [← hc, ← hz]; exact word_eq_mkWord r.word, rfl⟩

/-- The descriptor fixes the word and the device. -/
theorem Request.Presents.unique (h : r.Presents k wc dev a) (h' : r'.Presents k wc dev a) :
    r.word = r'.word ∧ r.dev = r'.dev :=
  ⟨h.word.trans h'.word.symm, h.dev_eq.trans h'.dev_eq.symm⟩

theorem Request.Presents.decode_bus {kind : AccessKind} (h : r.Presents kind.bits wc dev a) :
    decode r = .ok (decodeBus kind r) :=
  Sys2Proof.decode_bus h.kindBits h.zBits h.clsBits

end presents

/-! ### The kinds (R55) -/

/-- The two bus kinds. -/
theorem bus_kind_of_lt {k : BitVec 4} (h : k.toNat < 2) : ∃ kind : AccessKind, k = kind.bits := by
  have hk : k = 0#4 ∨ k = 1#4 := by revert k; decide
  obtain rfl | rfl := hk
  · exact ⟨.read, rfl⟩
  · exact ⟨.write, rfl⟩

/-- The six kinds that are not bus kinds. -/
theorem control_kinds {k : BitVec 4} (h2 : 2 ≤ k.toNat) (h8 : k.toNat < 8) :
    k = 2#4 ∨ k = 3#4 ∨ k = 4#4 ∨ k = 5#4 ∨ k = 6#4 ∨ k = 7#4 := by
  revert k; decide

/-! ### Steps 2 to 5 of R58: the bus kinds -/

section bus

variable {r : Request} {kind : AccessKind} {wc : BitVec 2} {n : Width} {v : BusVal} {dev : DevRef}
  {off : BitVec 16}

theorem decodeBus_of_no_registers (h : hasRegisters r.dev.cls = false) :
    decodeBus kind r = .busInvalidOffset kind r.wcBits r.dev r.argBits := by
  simp [decodeBus, h]

theorem decodeBus_of_badwidth (h : hasRegisters r.dev.cls = true) (hwc : r.wcBits = 3#2) :
    decodeBus kind r = .busBadwidth kind r.dev r.argBits := by
  simp [decodeBus, h, Width.ofBits_eq_none.mpr hwc]

theorem decodeBus_read (h : hasRegisters r.dev.cls = true) (hwc : Width.ofBits r.wcBits = some n) :
    decodeBus .read r = decodeRead r.wcBits n r.dev r.argBits := by
  simp [decodeBus, h, hwc]

theorem decodeBus_write (h : hasRegisters r.dev.cls = true) (hwc : Width.ofBits r.wcBits = some n) :
    decodeBus .write r = decodeWrite r.wcBits (BusVal.ofWord n r.value) r.dev r.argBits := by
  simp [decodeBus, h, hwc]

theorem Width.exists_of_ne_three (hwc : wc ≠ 3#2) : ∃ n, Width.ofBits wc = some n :=
  Option.ne_none_iff_exists'.mp (mt Width.ofBits_eq_none.mp hwc)

theorem defOffsets_aligned {c : DevClass} (h : off ∈ defOffsets c) : off.toNat % 4 = 0 := by
  cases c <;> fin_cases h <;> rfl

theorem decodeRead_of_undefined (h : off ∉ defOffsets dev.cls) :
    decodeRead wc n dev off = .busInvalidOffset .read wc dev off := by
  obtain ⟨c, k⟩ := dev
  cases c with
  | gpio => simp_all [decodeRead, defOffsets, defGpio, ← BitVec.toNat_inj]
  | csr => simp_all [decodeRead, defOffsets, defRcc, ← BitVec.toNat_inj]
  | button => rfl
  | led => rfl

theorem decodeWrite_of_undefined (h : off ∉ defOffsets dev.cls) :
    decodeWrite wc v dev off = .busInvalidOffset .write wc dev off := by
  obtain ⟨c, k⟩ := dev
  cases c with
  | gpio => simp_all [decodeWrite, defOffsets, defGpio, ← BitVec.toNat_inj]
  | csr => simp_all [decodeWrite, defOffsets, defRcc, ← BitVec.toNat_inj]
  | button => rfl
  | led => rfl

theorem decodeBus_of_undefined (h : hasRegisters r.dev.cls = true) (hwc : r.wcBits ≠ 3#2)
    (hoff : r.argBits ∉ defOffsets r.dev.cls) :
    decodeBus kind r = .busInvalidOffset kind r.wcBits r.dev r.argBits := by
  obtain ⟨n, hn⟩ := Width.exists_of_ne_three hwc
  cases kind with
  | read => rw [decodeBus_read h hn, decodeRead_of_undefined hoff]
  | write => rw [decodeBus_write h hn, decodeWrite_of_undefined hoff]

end bus

/-! ### Step 6 of R58: the other kinds -/

section control

variable {r : Request} {k : BitVec 4} {dev : DevRef} {a : BitVec 16}

theorem Request.Presents.decode_control (h : r.Presents k 0#2 dev a) (h2 : 2 ≤ k.toNat)
    (h8 : k.toNat < 8) : decode r = decodeControl r :=
  Sys2Proof.decode_control (h.kindBits.symm ▸ h2) (h.kindBits.symm ▸ h8) h.zBits h.clsBits

theorem Request.Presents.decode_reset (h : r.Presents 2#4 0#2 dev a) : decode r = decodeReset r := by
  rw [h.decode_control (by decide) (by decide)]
  simp [decodeControl, h.wcBits, h.kindBits]

theorem Request.Presents.decode_pinIn (h : r.Presents 3#4 0#2 dev a) : decode r = decodePinIn r := by
  rw [h.decode_control (by decide) (by decide)]
  simp [decodeControl, h.wcBits, h.kindBits]

theorem Request.Presents.decode_connect (h : r.Presents 4#4 0#2 dev a) :
    decode r = decodeConnect r := by
  rw [h.decode_control (by decide) (by decide)]
  simp [decodeControl, h.wcBits, h.kindBits]

theorem Request.Presents.decode_byteIn (h : r.Presents 5#4 0#2 dev a) :
    decode r = decodeByteIn r := by
  rw [h.decode_control (by decide) (by decide)]
  simp [decodeControl, h.wcBits, h.kindBits]

theorem Request.Presents.decode_save (h : r.Presents 6#4 0#2 dev a) : decode r = decodeSave r := by
  rw [h.decode_control (by decide) (by decide)]
  simp [decodeControl, h.wcBits, h.kindBits]

theorem Request.Presents.decode_restore (h : r.Presents 7#4 0#2 dev a) :
    decode r = decodeRestore r := by
  rw [h.decode_control (by decide) (by decide)]
  simp [decodeControl, h.wcBits, h.kindBits]

end control

/-! ### Decoding an encoded instruction (R54, R59) -/

section encode

theorem decode_encodeRead (c : DevClass) (hc : hasRegisters c = true) (k : Nat) (n : Width)
    (off : BitVec 16) : decode (encodeRead c k n off) = .ok (decodeRead n.bits n ⟨c, k⟩ off) := by
  have hp : (encodeRead c k n off).Presents AccessKind.read.bits n.bits ⟨c, k⟩ off := ⟨rfl, rfl⟩
  rw [hp.decode_bus, decodeBus_read (n := n) hc (by rw [hp.wcBits, Width.ofBits_bits]), hp.wcBits,
    hp.dev_eq, hp.argBits]

theorem decode_encodeWrite (c : DevClass) (hc : hasRegisters c = true) (k : Nat) (v : BusVal)
    (off : BitVec 16) :
    decode (encodeWrite c k v off) = .ok (decodeWrite v.width.bits v ⟨c, k⟩ off) := by
  have hp : (encodeWrite c k v off).Presents AccessKind.write.bits v.width.bits ⟨c, k⟩ off :=
    ⟨rfl, rfl⟩
  have hv : BusVal.ofWord v.width (encodeWrite c k v off).value = v := Machine.busVal_ofWord_zext v
  rw [hp.decode_bus, decodeBus_write (n := v.width) hc (by rw [hp.wcBits, Width.ofBits_bits]), hv,
    hp.wcBits, hp.dev_eq, hp.argBits]

theorem decode_encode_badwidth {kind : AccessKind} {dev : DevRef} {off : BitVec 16}
    (h : (Instr.busBadwidth kind dev off).wellFormed = true) :
    decode (encode (.busBadwidth kind dev off)) = .ok (.busBadwidth kind dev off) := by
  have hp : (encode (.busBadwidth kind dev off)).Presents kind.bits 3#2 dev off := ⟨rfl, rfl⟩
  rw [hp.decode_bus, decodeBus_of_badwidth (hp.dev_eq ▸ h) hp.wcBits, hp.dev_eq, hp.argBits]

/-- A well-formed BUS.INVALID_OFFSET is what a bus request decodes to (R58 steps 2 and 5). -/
theorem decodeBus_of_invalidOffset {r : Request} {kind : AccessKind}
    (h : (Instr.busInvalidOffset kind r.wcBits r.dev r.argBits).wellFormed = true) :
    decodeBus kind r = .busInvalidOffset kind r.wcBits r.dev r.argBits := by
  by_cases hreg : hasRegisters r.dev.cls = true
  · obtain ⟨hwc, hoff⟩ : r.wcBits ≠ 3#2 ∧ r.argBits ∉ defOffsets r.dev.cls := by
      simpa [Instr.wellFormed, hreg] using h
    exact decodeBus_of_undefined hreg hwc hoff
  · exact decodeBus_of_no_registers (Bool.eq_false_iff.mpr hreg)

theorem decode_encode_invalidOffset {kind : AccessKind} {wc : BitVec 2} {dev : DevRef}
    {off : BitVec 16} (h : (Instr.busInvalidOffset kind wc dev off).wellFormed = true) :
    decode (encode (.busInvalidOffset kind wc dev off)) = .ok (.busInvalidOffset kind wc dev off) := by
  have hp : (encode (.busInvalidOffset kind wc dev off)).Presents kind.bits wc dev off := ⟨rfl, rfl⟩
  have hi := decodeBus_of_invalidOffset (r := encode (.busInvalidOffset kind wc dev off))
    (kind := kind) (by rwa [hp.wcBits, hp.dev_eq, hp.argBits])
  rw [hp.decode_bus, hi, hp.wcBits, hp.dev_eq, hp.argBits]

theorem decodeSink_encodeConnect (dev : DevRef) (a : BitVec 16) (sink : Sink) :
    decodeSink (encodeConnect dev a sink) = some sink := by
  cases sink with
  | gpio k q => simp [decodeSink, encodeConnect]
  | led k => simp [decodeSink, encodeConnect]

theorem encodeConnect_presents (dev : DevRef) (a : BitVec 16) (sink : Sink) :
    (encodeConnect dev a sink).Presents 4#4 0#2 dev a := by
  cases sink <;> exact ⟨rfl, rfl⟩

/-- A pin or endpoint number is read back from the field `A` (R54). -/
theorem toNat_ofNat_of_lt {p : Nat} (h : p < 64) : (BitVec.ofNat 16 p).toNat = p := by
  rw [BitVec.toNat_ofNat, Nat.mod_eq_of_lt (by omega)]

theorem decode_encode_pinInGpio (k : Nat) (pin : Fin 16) (b : Bool) :
    decode (encode (.pinInGpio k pin b)) = .ok (.pinInGpio k pin b) := by
  have hp : (encode (.pinInGpio k pin b)).Presents 3#4 0#2 ⟨.gpio, k⟩ (BitVec.ofNat 16 pin.val) :=
    ⟨rfl, rfl⟩
  have hb : decide ((encode (.pinInGpio k pin b)).level ≠ 0) = b := by cases b <;> rfl
  rw [hp.decode_pinIn, decodePinIn, hb, hp.argBits]
  simp [hp.dev_eq, toNat_ofNat_of_lt (show pin.val < 64 by omega)]

theorem decode_encode_pinInLed (k : Nat) (b : Bool) :
    decode (encode (.pinInLed k b)) = .ok (.pinInLed k b) := by
  have hp : (encode (.pinInLed k b)).Presents 3#4 0#2 ⟨.led, k⟩ 0#16 := ⟨rfl, rfl⟩
  have hb : decide ((encode (.pinInLed k b)).level ≠ 0) = b := by cases b <;> rfl
  rw [hp.decode_pinIn, decodePinIn, hb]
  simp [hp.dev_eq, hp.argBits]

theorem decode_encode_connectGpio (k : Nat) (p : Fin 64) (sink : Sink) :
    decode (encode (.connectGpio k p sink)) = .ok (.connectGpio k p sink) := by
  have hp := encodeConnect_presents ⟨.gpio, k⟩ (BitVec.ofNat 16 p.val) sink
  rw [encode, hp.decode_connect, decodeConnect, decodeSink_encodeConnect, hp.argBits]
  simp [hp.dev_eq, toNat_ofNat_of_lt p.isLt]

theorem decode_encode_connectButton (k : Nat) (sink : Sink) :
    decode (encode (.connectButton k sink)) = .ok (.connectButton k sink) := by
  have hp := encodeConnect_presents ⟨.button, k⟩ 0#16 sink
  rw [encode, hp.decode_connect, decodeConnect, decodeSink_encodeConnect]
  simp [hp.dev_eq, hp.argBits]

theorem decode_encode {i : Instr} (h : i.wellFormed = true) : decode (encode i) = .ok i := by
  cases i with
  | gpioRdMode k n | gpioRdOtype k n | gpioRdOspeed k n | gpioRdPupd k n | gpioRdIdr k n
  | gpioRdOdr k n | gpioRdBsrr k n | gpioRdLck k n | gpioRdAfrl k n | gpioRdAfrh k n =>
    exact decode_encodeRead .gpio rfl k n _
  | gpioWrMode k v | gpioWrOtype k v | gpioWrOspeed k v | gpioWrPupd k v | gpioWrIdr k v
  | gpioWrOdr k v | gpioWrBsrr k v | gpioWrLck k v | gpioWrAfrl k v | gpioWrAfrh k v =>
    exact decode_encodeWrite .gpio rfl k v _
  | csrRdReg0 k n | csrRdReg1 k n | csrRdReg2 k n | csrRdReg3 k n | csrRdReg4 k n | csrRdReg5 k n
  | csrRdReg6 k n | csrRdReg7 k n | csrRdReg8 k n | csrRdReg9 k n | csrRdReg10 k n
  | csrRdReg11 k n | csrRdReg12 k n | csrRdReg13 k n =>
    exact decode_encodeRead .csr rfl k n _
  | csrWrReg0 k v | csrWrReg1 k v | csrWrReg2 k v | csrWrReg3 k v | csrWrReg4 k v | csrWrReg5 k v
  | csrWrReg6 k v | csrWrReg7 k v | csrWrReg8 k v | csrWrReg9 k v | csrWrReg10 k v
  | csrWrReg11 k v | csrWrReg12 k v | csrWrReg13 k v =>
    exact decode_encodeWrite .csr rfl k v _
  | busBadwidth kind dev off => exact decode_encode_badwidth h
  | busInvalidOffset kind wc dev off => exact decode_encode_invalidOffset h
  | resetGpio k | resetCsr k | resetButton k | resetLed k =>
    refine (Request.Presents.decode_reset ⟨rfl, rfl⟩).trans ?_
    exact if_pos (Request.bare_arg ..)
  | pinInGpio k pin b => exact decode_encode_pinInGpio k pin b
  | pinInLed k b => exact decode_encode_pinInLed k b
  | connectGpio k p sink => exact decode_encode_connectGpio k p sink
  | connectButton k sink => exact decode_encode_connectButton k sink
  | byteInButton k x =>
    exact (Request.Presents.decode_byteIn ⟨rfl, rfl⟩).trans (if_pos (Request.bare_arg ..))
  | save dev => exact (Request.Presents.decode_save ⟨rfl, rfl⟩).trans (if_pos (Request.bare_arg ..))
  | restore dev fields =>
    exact (Request.Presents.decode_restore ⟨rfl, rfl⟩).trans (if_pos (Request.bare_arg ..))

end encode

/-- Settles O1: case by case over the instruction, the registers' rows by their offset. -/
theorem decodeOfEncodeIsIdentity : Obligations.DecodeOfEncodeIsIdentity := by
  unfold Obligations.DecodeOfEncodeIsIdentity
  exact fun _ h => decode_encode h

/-! ### Encoding a decoded instruction (R57 to R59) -/

/-- The instruction is no bus-fault row, and its encoding presents the descriptor of the given fields. -/
structure Instr.OwnRow (i : Instr) (k : BitVec 4) (wc : BitVec 2) (dev : DevRef) (a : BitVec 16) :
    Prop where
  notFault : isFaultRow i = false
  presents : (encode i).Presents k wc dev a

theorem wellFormed_of_notFault {i : Instr} (h : isFaultRow i = false) : i.wellFormed = true := by
  cases i
  case busBadwidth => cases h
  case busInvalidOffset => cases h
  all_goals rfl

section ownRow

variable {r : Request} {i : Instr} {kind : AccessKind} {wc : BitVec 2} {n : Width} {v : BusVal}
  {dev : DevRef} {off : BitVec 16}

theorem decodeRead_ownRow (h : off ∈ defOffsets dev.cls) :
    (decodeRead wc n dev off).OwnRow 0#4 n.bits dev off := by
  obtain ⟨c, k⟩ := dev
  cases c with
  | gpio => change off ∈ defGpio at h; fin_cases h <;> exact ⟨rfl, rfl, rfl⟩
  | csr => change off ∈ defRcc at h; fin_cases h <;> exact ⟨rfl, rfl, rfl⟩
  | button => cases h
  | led => cases h

theorem decodeWrite_ownRow (h : off ∈ defOffsets dev.cls) :
    (decodeWrite wc v dev off).OwnRow 1#4 v.width.bits dev off := by
  obtain ⟨c, k⟩ := dev
  cases c with
  | gpio => change off ∈ defGpio at h; fin_cases h <;> exact ⟨rfl, rfl, rfl⟩
  | csr => change off ∈ defRcc at h; fin_cases h <;> exact ⟨rfl, rfl, rfl⟩
  | button => cases h
  | led => cases h

theorem decodeBus_ownRow (h : hasRegisters r.dev.cls = true) (hwc : r.wcBits ≠ 3#2)
    (hoff : r.argBits ∈ defOffsets r.dev.cls) :
    (decodeBus kind r).OwnRow kind.bits r.wcBits r.dev r.argBits := by
  obtain ⟨n, hn⟩ := Width.exists_of_ne_three hwc
  have hbits := Width.bits_of_ofBits hn
  cases kind with
  | read =>
    rw [decodeBus_read h hn]
    exact hbits ▸ decodeRead_ownRow hoff
  | write =>
    have hv := Machine.busVal_ofWord_width n r.value
    rw [decodeBus_write h hn]
    have hrow := decodeWrite_ownRow (wc := r.wcBits) (v := BusVal.ofWord n r.value) hoff
    rwa [hv, hbits] at hrow

theorem decodeReset_ownRow (h : decodeReset r = .ok i) : i.OwnRow 2#4 0#2 r.dev r.argBits := by
  rw [decodeReset] at h
  split at h
  next ha =>
    rw [ha]
    cases hd : r.dev with
    | mk c k => cases c <;> (simp only [hd] at h; cases h; exact ⟨rfl, rfl, rfl⟩)
  next => cases h

theorem decodePinIn_ownRow (h : decodePinIn r = .ok i) : i.OwnRow 3#4 0#2 r.dev r.argBits := by
  cases hd : r.dev with
  | mk c k =>
    cases c with
    | gpio =>
      simp only [decodePinIn, hd] at h
      split at h <;> cases h
      exact ⟨rfl, by simp [encode, Request.bare], rfl⟩
    | led =>
      simp only [decodePinIn, hd] at h
      split at h <;> cases h
      next ha => rw [ha]; exact ⟨rfl, rfl, rfl⟩
    | csr => simp [decodePinIn, hd] at h
    | button => simp [decodePinIn, hd] at h

theorem decodeConnect_ownRow (h : decodeConnect r = .ok i) :
    i.OwnRow 4#4 0#2 r.dev r.argBits := by
  cases hd : r.dev with
  | mk c k =>
    cases c with
    | gpio =>
      simp only [decodeConnect, hd] at h
      split at h
      next =>
        split at h <;> cases h
        refine ⟨rfl, ?_⟩
        rw [encode]
        simpa using encodeConnect_presents ⟨.gpio, k⟩ (BitVec.ofNat 16 r.argBits.toNat) _
      next => cases h
    | button =>
      simp only [decodeConnect, hd] at h
      split at h
      next ha =>
        split at h <;> cases h
        exact ⟨rfl, ha ▸ encodeConnect_presents ⟨.button, k⟩ 0#16 _⟩
      next => cases h
    | csr => simp [decodeConnect, hd] at h
    | led => simp [decodeConnect, hd] at h

theorem decodeByteIn_ownRow (h : decodeByteIn r = .ok i) : i.OwnRow 5#4 0#2 r.dev r.argBits := by
  cases hd : r.dev with
  | mk c k =>
    cases c with
    | button =>
      simp only [decodeByteIn, hd] at h
      split at h <;> cases h
      next ha => rw [ha]; exact ⟨rfl, rfl, rfl⟩
    | gpio => simp [decodeByteIn, hd] at h
    | csr => simp [decodeByteIn, hd] at h
    | led => simp [decodeByteIn, hd] at h

theorem decodeSave_ownRow (h : decodeSave r = .ok i) : i.OwnRow 6#4 0#2 r.dev r.argBits := by
  rw [decodeSave] at h
  split at h <;> cases h
  next ha => rw [ha]; exact ⟨rfl, rfl, rfl⟩

theorem decodeRestore_ownRow (h : decodeRestore r = .ok i) :
    i.OwnRow 7#4 0#2 r.dev r.argBits := by
  rw [decodeRestore] at h
  split at h <;> cases h
  next ha => rw [ha]; exact ⟨rfl, rfl, rfl⟩

/-- What a request decodes to (R58): an own row with the request's descriptor, or one of the two
bus-fault rows, each under its condition. -/
inductive Decoded (r : Request) : Instr → Prop where
  | ownRow {i : Instr} (h : i.OwnRow r.kindBits r.wcBits r.dev r.argBits) : Decoded r i
  | badwidth (kind : AccessKind) (hk : r.kindBits = kind.bits)
      (hreg : hasRegisters r.dev.cls = true) (hwc : r.wcBits = 3#2) :
      Decoded r (.busBadwidth kind r.dev r.argBits)
  | invalidOffset (kind : AccessKind) (hk : r.kindBits = kind.bits)
      (h : hasRegisters r.dev.cls = false ∨
        (r.wcBits ≠ 3#2 ∧ r.argBits ∉ defOffsets r.dev.cls)) :
      Decoded r (.busInvalidOffset kind r.wcBits r.dev r.argBits)

theorem decodeBus_decoded (hk : r.kindBits = kind.bits) : Decoded r (decodeBus kind r) := by
  by_cases hreg : hasRegisters r.dev.cls = true
  · by_cases hwc : r.wcBits = 3#2
    · rw [decodeBus_of_badwidth hreg hwc]
      exact .badwidth kind hk hreg hwc
    · by_cases hoff : r.argBits ∈ defOffsets r.dev.cls
      · exact .ownRow (hk ▸ decodeBus_ownRow hreg hwc hoff)
      · rw [decodeBus_of_undefined hreg hwc hoff]
        exact .invalidOffset kind hk (.inr ⟨hwc, hoff⟩)
  · have hreg := Bool.eq_false_iff.mpr hreg
    rw [decodeBus_of_no_registers hreg]
    exact .invalidOffset kind hk (.inl hreg)

theorem decoded_of_decode_ok (h : decode r = .ok i) : Decoded r i := by
  obtain ⟨hz, hc, ⟨kind, hk, rfl⟩ | ⟨h2, h8, hwc, -⟩⟩ := decode_ok_cases h
  · exact decodeBus_decoded hk
  · have hp := Request.presents_of_fields hz hc
    refine .ownRow ?_
    rw [hwc] at hp ⊢
    obtain hk | hk | hk | hk | hk | hk := control_kinds h2 h8 <;> rw [hk] at hp ⊢
    · exact decodeReset_ownRow (hp.decode_reset ▸ h)
    · exact decodePinIn_ownRow (hp.decode_pinIn ▸ h)
    · exact decodeConnect_ownRow (hp.decode_connect ▸ h)
    · exact decodeByteIn_ownRow (hp.decode_byteIn ▸ h)
    · exact decodeSave_ownRow (hp.decode_save ▸ h)
    · exact decodeRestore_ownRow (hp.decode_restore ▸ h)

theorem Decoded.wellFormed (h : Decoded r i) : i.wellFormed = true := by
  cases h with
  | ownRow h => exact wellFormed_of_notFault h.notFault
  | badwidth kind hk hreg hwc => exact hreg
  | invalidOffset kind hk h => simpa [Instr.wellFormed] using h

theorem Decoded.encode_presents (h : Decoded r i) :
    (encode i).Presents r.kindBits r.wcBits r.dev r.argBits := by
  cases h with
  | ownRow h => exact h.presents
  | badwidth kind hk hreg hwc => rw [hk, hwc]; exact ⟨rfl, rfl⟩
  | invalidOffset kind hk h => rw [hk]; exact ⟨rfl, rfl⟩

theorem encode_of_decode_ok (h : decode r = .ok i) :
    (encode i).word = r.word ∧ (encode i).dev = r.dev := by
  obtain ⟨-, hz, hc⟩ := decode_ok_fields h
  exact (decoded_of_decode_ok h).encode_presents.unique (Request.presents_of_fields hz hc)

end ownRow

/-- Every instruction's encoded word matches its row (R59): the laws of the 61 rows together. -/
theorem encode_matches_row (i : Instr) : Laws.EncodesItsRow.Statement i := by
  open Laws.EncodesItsRow in
  cases i
  exacts [gpioRdMode _ _, gpioWrMode _ _, gpioRdOtype _ _, gpioWrOtype _ _, gpioRdOspeed _ _,
    gpioWrOspeed _ _, gpioRdPupd _ _, gpioWrPupd _ _, gpioRdIdr _ _, gpioWrIdr _ _, gpioRdOdr _ _,
    gpioWrOdr _ _, gpioRdBsrr _ _, gpioWrBsrr _ _, gpioRdLck _ _, gpioWrLck _ _, gpioRdAfrl _ _,
    gpioWrAfrl _ _, gpioRdAfrh _ _, gpioWrAfrh _ _, csrRdReg0 _ _, csrWrReg0 _ _, csrRdReg1 _ _,
    csrWrReg1 _ _, csrRdReg2 _ _, csrWrReg2 _ _, csrRdReg3 _ _, csrWrReg3 _ _, csrRdReg4 _ _,
    csrWrReg4 _ _, csrRdReg5 _ _, csrWrReg5 _ _, csrRdReg6 _ _, csrWrReg6 _ _, csrRdReg7 _ _,
    csrWrReg7 _ _, csrRdReg8 _ _, csrWrReg8 _ _, csrRdReg9 _ _, csrWrReg9 _ _, csrRdReg10 _ _,
    csrWrReg10 _ _, csrRdReg11 _ _, csrWrReg11 _ _, csrRdReg12 _ _, csrWrReg12 _ _, csrRdReg13 _ _,
    csrWrReg13 _ _, busBadwidth _ _ _, busInvalidOffset _ _ _ _, resetGpio _, resetCsr _,
    resetButton _, resetLed _, pinInGpio _ _ _, pinInLed _ _, connectGpio _ _ _, connectButton _ _,
    byteInButton _ _, save _, restore _ _]

/-- Settles O2: a bus-fault row comes out of the decoder under its condition alone. -/
theorem decodedInstructionsAreWellFormed : Obligations.DecodedInstructionsAreWellFormed := by
  unfold Obligations.DecodedInstructionsAreWellFormed
  exact fun _ _ h => (decoded_of_decode_ok h).wellFormed

/-- Settles O4: the request and the encoding present the same descriptor. -/
theorem encodeOfDecodeGivesTheWordBack : Obligations.EncodeOfDecodeGivesTheWordBack := by
  unfold Obligations.EncodeOfDecodeGivesTheWordBack
  exact fun _ _ h => encode_of_decode_ok h

/-- Settles O3: the word is the one the encoder lays out, and that one matches the row. -/
theorem decodedWordsMatchTheirTableRow : Obligations.DecodedWordsMatchTheirTableRow := by
  unfold Obligations.DecodedWordsMatchTheirTableRow
  intro r i h
  obtain ⟨hword, -⟩ := encode_of_decode_ok h
  have hrow := encode_matches_row i (decoded_of_decode_ok h).wellFormed
  rw [OpRow.matches, beq_iff_eq, hword] at hrow
  exact hrow

/-! ### The order of a bus request (R58) -/

theorem hasRegisters_iff (c : DevClass) : hasRegisters c = true ↔ ¬ (c = .button ∨ c = .led) := by
  cases c <;> decide

/-- Settles O5: the branches of R58 in their order, the register's row by its descriptor. -/
theorem busRequestsAreDecidedInOrder : Obligations.BusRequestsAreDecidedInOrder := by
  unfold Obligations.BusRequestsAreDecidedInOrder
  intro r kind hk hz hc
  refine ⟨decodeBus kind r, decode_bus hk hz hc, ?_⟩
  split_ifs with hcls hwc hoff
  · exact decodeBus_of_no_registers (by simpa [hcls] using hasRegisters_iff r.dev.cls)
  · exact decodeBus_of_badwidth ((hasRegisters_iff _).mpr hcls) hwc
  · obtain ⟨-, hmem⟩ := hoff
    have hrow := decodeBus_ownRow (kind := kind) ((hasRegisters_iff _).mpr hcls) hwc hmem
    have hr := Request.presents_of_fields hz hc
    exact ⟨hrow.notFault, (hrow.presents.unique (hk ▸ hr)).1⟩
  · exact decodeBus_of_undefined ((hasRegisters_iff _).mpr hcls) hwc
      fun hmem => hoff ⟨defOffsets_aligned hmem, hmem⟩

/-! ### The refusals (R60) -/

section refusals

variable {r : Request}

theorem decodeReset_refuses_iff : (∃ e, decodeReset r = .error e) ↔ r.argBits ≠ 0#16 := by
  rw [decodeReset]
  split
  next ha => cases hd : r.dev.cls <;> simp [ha]
  next ha => simp [ha]

theorem decodePinIn_refuses_iff :
    (∃ e, decodePinIn r = .error e) ↔
      (r.dev.cls = .csr ∨ r.dev.cls = .button) ∨ (r.dev.cls = .gpio ∧ 15 < r.argBits.toNat) ∨
        (r.dev.cls = .led ∧ r.argBits ≠ 0#16) := by
  rw [decodePinIn]
  cases hd : r.dev.cls with
  | gpio => dsimp only; split <;> simp <;> omega
  | led => dsimp only; split <;> simp_all
  | csr => simp
  | button => simp

theorem decodeSink_eq_none_iff :
    decodeSink r = none ↔
      ¬ (r.sink.cls = .gpio ∧ r.sinkPin ≤ 15 ∨ r.sink.cls = .led ∧ r.sinkPin = 0) := by
  rw [decodeSink]
  cases hd : r.sink.cls with
  | gpio => dsimp only; split <;> simp <;> omega
  | led => dsimp only; split <;> simp_all
  | csr => simp
  | button => simp

theorem decodeConnect_refuses_iff :
    (∃ e, decodeConnect r = .error e) ↔
      (r.dev.cls = .csr ∨ r.dev.cls = .led) ∨ (r.dev.cls = .gpio ∧ 63 < r.argBits.toNat) ∨
        (r.dev.cls = .button ∧ r.argBits ≠ 0#16) ∨ decodeSink r = none := by
  rw [decodeConnect]
  cases hd : r.dev.cls with
  | gpio =>
    dsimp only
    split
    next ha => cases hs : decodeSink r <;> simp; omega
    next ha => simp; omega
  | button =>
    dsimp only
    split
    next ha => cases hs : decodeSink r <;> simp [ha]
    next ha => simp [ha]
  | csr => simp
  | led => simp

theorem decodeByteIn_refuses_iff :
    (∃ e, decodeByteIn r = .error e) ↔ r.dev.cls ≠ .button ∨ r.argBits ≠ 0#16 := by
  rw [decodeByteIn]
  cases hd : r.dev.cls with
  | button => dsimp only; split <;> simp_all
  | gpio => simp
  | csr => simp
  | led => simp

theorem decodeSave_refuses_iff : (∃ e, decodeSave r = .error e) ↔ r.argBits ≠ 0#16 := by
  rw [decodeSave]
  split <;> simp_all

theorem decodeRestore_refuses_iff : (∃ e, decodeRestore r = .error e) ↔ r.argBits ≠ 0#16 := by
  rw [decodeRestore]
  split <;> simp_all

/-- The refusals of step 1 and of a wrong class (R60). -/
theorem decode_refuses_of_fields
    (h : 8 ≤ r.kindBits.toNat ∨ r.zBits ≠ 0#8 ∨ r.clsBits ≠ r.dev.cls.bits) :
    ∃ e, decode r = .error e := by
  cases hd : decode r with
  | error e => exact ⟨e, rfl⟩
  | ok i =>
    obtain ⟨hk, hz, hc⟩ := decode_ok_fields hd
    obtain h | h | h := h
    · exact absurd (BitVec.le_def.mpr (by simpa using h)) hk
    · exact absurd hz h
    · exact absurd hc h

theorem decode_refuses_of_wc (h2 : 2 ≤ r.kindBits.toNat) (hwc : r.wcBits ≠ 0#2) :
    ∃ e, decode r = .error e := by
  cases hd : decode r with
  | error e => exact ⟨e, rfl⟩
  | ok i =>
    obtain ⟨-, -, ⟨kind, hk, -⟩ | ⟨-, -, hwc', -⟩⟩ := decode_ok_cases hd
    · rw [hk] at h2
      cases kind <;> exact absurd h2 (by decide)
    · exact absurd hwc' hwc

end refusals

/-- Settles O6: the fields of step 1 first, then the bus kinds, which are never refused, and the six
others by what their own decoders refuse. -/
theorem illegalDescriptorsAreRefused : Obligations.IllegalDescriptorsAreRefused := by
  unfold Obligations.IllegalDescriptorsAreRefused
  constructor
  · intro r
    by_cases hf : 8 ≤ r.kindBits.toNat ∨ r.zBits ≠ 0#8 ∨ r.clsBits ≠ r.dev.cls.bits
    · exact iff_of_true (by tauto) (decode_refuses_of_fields hf)
    simp only [not_or, not_le, ne_eq, not_not] at hf
    obtain ⟨h8, hz, hc⟩ := hf
    have hp := Request.presents_of_fields hz hc
    by_cases h2 : 2 ≤ r.kindBits.toNat
    · by_cases hwc : r.wcBits = 0#2
      · rw [hwc] at hp
        obtain hk | hk | hk | hk | hk | hk := control_kinds h2 h8 <;> rw [hk] at hp
        · rw [hp.decode_reset, decodeReset_refuses_iff]
          simp [hk, hz, hc, hwc]
        · rw [hp.decode_pinIn, decodePinIn_refuses_iff]
          simp [hk, hz, hc, hwc]
        · rw [hp.decode_connect, decodeConnect_refuses_iff, decodeSink_eq_none_iff]
          simp [hk, hz, hc, hwc]
        · rw [hp.decode_byteIn, decodeByteIn_refuses_iff]
          simp [hk, hz, hc, hwc]
        · rw [hp.decode_save, decodeSave_refuses_iff]
          simp [hk, hz, hc, hwc]
        · rw [hp.decode_restore, decodeRestore_refuses_iff]
          simp [hk, hz, hc, hwc]
      · exact iff_of_true (by tauto) (decode_refuses_of_wc h2 hwc)
    · obtain ⟨kind, hk⟩ := bus_kind_of_lt (not_le.mp h2)
      rw [hk] at hp
      rw [hp.decode_bus]
      cases kind <;> simp [hk, hz, hc, AccessKind.bits]
  · intro r kind hk hz hc hbad
    obtain ⟨i, hi, hrow⟩ := busRequestsAreDecidedInOrder r kind hk hz hc
    refine ⟨i, hi, ?_⟩
    split_ifs at hrow with hcls hwc hoff
    · rw [hrow]; rfl
    · rw [hrow]; rfl
    · obtain ⟨haligned, hmem⟩ := hoff
      obtain h | h | h := hbad
      · exact absurd h hwc
      · exact absurd haligned h
      · exact absurd hmem h
    · rw [hrow]; rfl

/-! ### Sample words (R54, R59) -/

/-- Settles O7, by running the decoder on the twelve words. -/
theorem sampleWordsDecodeAsTheTableSays : Obligations.SampleWordsDecodeAsTheTableSays := by
  unfold Obligations.SampleWordsDecodeAsTheTableSays
  decide

end Sys2Proof
end

section
/-! # The pseudo-operations (spec/30_encoding.md R61, R62): `setmode` and `setpull` change one field,
`set` and `clr` one output bit. -/

namespace Sys2Proof.Machine

open Sys2Proof.Config Sys2Proof.Claims

/-! ### Lines to the board's GPIO controllers (R61) -/

theorem gpioReadInstr_wellFormed (r : GpioReg) (k : Nat) (n : Width) :
    (gpioReadInstr r k n).wellFormed = true := by cases r <;> rfl

theorem gpioWriteInstr_wellFormed (r : GpioReg) (k : Nat) (v : BusVal) :
    (gpioWriteInstr r k v).wellFormed = true := by cases r <;> rfl

theorem encode_gpioReadInstr (r : GpioReg) (k : Nat) (n : Width) :
    encode (gpioReadInstr r k n) = encodeRead .gpio k n (gpioOffset r) := by cases r <;> rfl

theorem encode_gpioWriteInstr (r : GpioReg) (k : Nat) (v : BusVal) :
    encode (gpioWriteInstr r k v) = encodeWrite .gpio k v (gpioOffset r) := by cases r <;> rfl

section lines

variable {g : DevName × Nat}

theorem devOfName_of_mem (h : g ∈ gpioNames) : devOfName g.1 = ⟨.gpio, g.2⟩ := by
  fin_cases h <;> rfl

/-- A read line at a register's name is the register's encoded read. -/
theorem decode_assemble_rd (h : g ∈ gpioNames) (n : Width) (r : GpioReg) :
    decode (assemble (.rd n g.1 (.gpioReg r))) = .ok (gpioReadInstr r g.2 n) := by
  have henc : assemble (.rd n g.1 (.gpioReg r)) = encode (gpioReadInstr r g.2 n) := by
    rw [encode_gpioReadInstr, assemble, devOfName_of_mem h]
    rfl
  rw [henc, decode_encode (gpioReadInstr_wellFormed r g.2 n)]

/-- A 4-byte write line at a register's name is the register's encoded write. -/
theorem decode_assemble_wr (h : g ∈ gpioNames) (r : GpioReg) (v : Word) :
    decode (assemble (.wr .w4 g.1 (.gpioReg r) v)) = .ok (gpioWriteInstr r g.2 (.b32 v)) := by
  have henc : assemble (.wr .w4 g.1 (.gpioReg r) v) = encode (gpioWriteInstr r g.2 (.b32 v)) := by
    rw [encode_gpioWriteInstr, assemble, devOfName_of_mem h]
    rfl
  rw [henc, decode_encode (gpioWriteInstr_wellFormed r g.2 _)]

end lines

/-! ### One 2-bit field (R9, R62) -/

theorem field2_eq_extractLsb' (w : Word) (i : Nat) : field2 w i = (w.extractLsb' (2 * i) 2).toNat := by
  rw [field2, BitVec.extractLsb'_toNat, Nat.shiftRight_eq_div_pow, Nat.pow_mul]

/-- `putF2`, bit by bit: the new field in its two bits, the old word elsewhere. -/
theorem putF2_getLsbD (x : Word) (p : Fin 16) (m : BitVec 2) {j : Nat} (hj : j < 32) :
    (putF2 x p m).getLsbD j =
      if 2 * p.val ≤ j ∧ j < 2 * p.val + 2 then m.getLsbD (j - 2 * p.val) else x.getLsbD j := by
  have hmask : ∀ e, (3#32).getLsbD e = decide (e < 2) := by
    intro e
    rw [show 3#32 = BitVec.ofNat 32 (2 ^ 2 - 1) from rfl, BitVec.getLsbD_ofNat,
      Nat.testBit_two_pow_sub_one]
    simp; omega
  have hm : 2 ≤ j - 2 * p.val → m.getLsbD (j - 2 * p.val) = false := BitVec.getLsbD_of_ge _ _
  simp only [putF2, BitVec.getLsbD_or, BitVec.getLsbD_and, BitVec.getLsbD_not,
    BitVec.getLsbD_shiftLeft, BitVec.getLsbD_setWidth, hmask, hj, decide_true, Bool.true_and]
  by_cases hlo : j < 2 * p.val
  · rw [if_neg (by omega)]
    simp [hlo]
  · by_cases hhi : j < 2 * p.val + 2
    · rw [if_pos (by omega)]
      simp [hlo, show j - 2 * p.val < 2 by omega, show j - 2 * p.val < 32 by omega]
    · rw [if_neg (by omega)]
      simp [hm (by omega), show ¬ j - 2 * p.val < 2 by omega]

theorem field2_putF2 (x : Word) (p : Fin 16) (m : BitVec 2) {i : Nat} (hi : i < 16) :
    field2 (putF2 x p m) i = if i = p.val then m.toNat else field2 x i := by
  have hfield : (putF2 x p m).extractLsb' (2 * i) 2 =
      if i = p.val then m else x.extractLsb' (2 * i) 2 := by
    apply BitVec.eq_of_getLsbD_eq
    intro e he
    rw [BitVec.getLsbD_extractLsb', putF2_getLsbD x p m (by omega)]
    by_cases h : i = p.val
    · rw [if_pos h, if_pos (by omega), h]
      simp [he]
    · rw [if_neg h, if_neg (by omega), BitVec.getLsbD_extractLsb']
  rw [field2_eq_extractLsb', field2_eq_extractLsb', hfield, apply_ite BitVec.toNat]

/-- Settles O52: the lines are encoded register accesses, and the written value is `putF2`'s. -/
theorem setmodeChangesOneField : Obligations.SetmodeChangesOneField := by
  unfold Obligations.SetmodeChangesOneField
  intro g hg p m x
  refine ⟨putF2 x p m, fun i hi => field2_putF2 x p m hi, ?_, ?_⟩
  · simp only [Pseudo.expand, List.map_cons, List.map_nil, decode_assemble_rd hg,
      decode_assemble_wr hg, gpioReadInstr, gpioWriteInstr]
  · simp only [Pseudo.expand, List.map_cons, List.map_nil, decode_assemble_rd hg,
      decode_assemble_wr hg, gpioReadInstr, gpioWriteInstr]

/-! ### One output bit (R62, R85) -/

/-- The value that `set` or `clr` writes to BSRR (R62). -/
def bsrrValue (p : Fin 16) (b : Bool) : Word :=
  if b then 1#32 <<< p.val else 1#32 <<< (16 + p.val)

theorem decode_setOrClr {g : DevName × Nat} (h : g ∈ gpioNames) (p : Fin 16) (x : Word) (b : Bool) :
    ((if b then Pseudo.set g.1 p else Pseudo.clr g.1 p).expand x).map (fun l => decode (assemble l)) =
      [.ok (.gpioWrBsrr g.2 (.b32 (bsrrValue p b)))] := by
  have hwr := decode_assemble_wr h .BSRR (bsrrValue p b)
  cases b <;> exact congrArg (fun d => [d]) hwr

theorem one_shiftLeft_getLsbD {p : Nat} (hp : p < 32) (j : Nat) :
    (1#32 <<< p).getLsbD j = decide (p = j) := by
  rw [← BitVec.twoPow_eq, BitVec.getLsbD_twoPow]
  simp [hp]

/-- A BSRR write of that value makes ODR bit `p` what it says and leaves the others. -/
theorem bsrrOdr_bsrrValue (odr : Word) (p : Fin 16) (b : Bool) (j : Nat) :
    ((odr ||| bsrrSet (bsrrValue p b)) &&& ~~~(bsrrReset (bsrrValue p b))).getLsbD j =
      if j = p.val then b else odr.getLsbD j := by
  have hp := p.isLt
  rw [bsrrOdr_getLsbD]
  cases b with
  | true =>
    have hbit : ∀ j, (bsrrValue p true).getLsbD j = decide (p.val = j) :=
      one_shiftLeft_getLsbD (by omega)
    grind
  | false =>
    have hbit : ∀ j, (bsrrValue p false).getLsbD j = decide (16 + p.val = j) :=
      one_shiftLeft_getLsbD (by omega)
    grind

/-- Settles O53: the BSRR write's update leaves ODR as the write rule made it. -/
theorem setAndClrChangeOneOutputBit : Obligations.SetAndClrChangeOneOutputBit := by
  unfold Obligations.SetAndClrChangeOneOutputBit
  intro g hg p x b s c hc
  obtain ⟨t, ht, hd⟩ := writeOutput_driven hc fun g =>
    g.store s.cfg.narrowWrite .BSRR (.b32 (bsrrValue p b))
  refine ⟨_, _, _, decode_setOrClr hg p x b, ht, hd.self, fun j => ?_⟩
  rw [Gpio.receive_odr]
  exact bsrrOdr_bsrrValue c.odr p b j

end Sys2Proof.Machine
end

section
/-! # GPIO configuration (spec/40_gpio_config.md R63 to R77): the gates of a pin, what a register read
answers, and the registers that a write only stores. -/

namespace Sys2Proof.Machine

open Sys2Proof.Config Sys2Proof.Claims

/-! ### The gates of a pin (R63) -/

theorem field2_eq_zero_iff (w : Word) (i : Fin 16) : field2 w i.val = 0 ↔ f2 w i = 0#2 := by
  have hfield : field2 w i.val = (f2 w i).toNat := field2_eq_extractLsb' w i.val
  rw [hfield]
  exact BitVec.toNat_inj (y := 0#2)

/-- The output gate (R63). -/
theorem Gpio.outEnabled_iff (g : Gpio) (i : Fin 16) : g.outEnabled i = true ↔ f2 g.mode i ≠ 0#2 := by
  simp [Gpio.outEnabled]

/-- Settles O22: the output gate wants a MODE field that is not 00 and the input gate one that is. -/
theorem pinGatesAreNeverBothOpen : Obligations.PinGatesAreNeverBothOpen := by
  unfold Obligations.PinGatesAreNeverBothOpen
  intro g i
  simp only [ne_eq, field2_eq_zero_iff]
  have hout := g.outEnabled_iff i
  have hin := g.inEnabled_iff i
  exact ⟨hout, hin, fun ⟨ho, hi⟩ => hout.mp ho (hin.mp hi).1⟩

/-! ### Decoding a bus access (R54 to R58) -/

section access

variable {r : Request} {c : DevClass} {k : Nat} {n : Width} {v : BusVal} {off : BitVec 16}
  {reg : GpioReg}

/-- A bus value is the one of its width with its number. -/
theorem ofWord_eq_of_lowBytes {w : Word} (h : lowBytes v.width w = v.zext.toNat) :
    BusVal.ofWord v.width w = v := by
  have hzext : (BusVal.ofWord v.width w).zext = v.zext :=
    BitVec.eq_of_toNat_eq ((busVal_ofWord_toNat v.width w).trans h)
  calc BusVal.ofWord v.width w
      = BusVal.ofWord (BusVal.ofWord v.width w).width (BusVal.ofWord v.width w).zext :=
        (busVal_ofWord_zext _).symm
    _ = BusVal.ofWord v.width v.zext := by rw [busVal_ofWord_width, hzext]
    _ = v := busVal_ofWord_zext v

/-- A bus read of a device with registers, up to the choice of the register. -/
theorem decode_of_isBusRead (hc : hasRegisters c = true) (h : isBusRead r c k n off) :
    decode r = .ok (decodeRead n.bits n ⟨c, k⟩ off) := by
  obtain ⟨hword, hdev⟩ := h
  have hp : r.Presents AccessKind.read.bits n.bits ⟨c, k⟩ off := ⟨hword, hdev⟩
  rw [hp.decode_bus, decodeBus_read (n := n) (hdev ▸ hc) (by rw [hp.wcBits, Width.ofBits_bits]),
    hp.wcBits, hdev, hp.argBits]

/-- A bus write of a device with registers, up to the choice of the register: the value's bits above
its width do not matter. -/
theorem decode_of_isBusWrite (hc : hasRegisters c = true) (h : isBusWrite r c k v off) :
    decode r = .ok (decodeWrite v.width.bits v ⟨c, k⟩ off) := by
  obtain ⟨hword, hdev, hvalue⟩ := h
  have hp : r.Presents AccessKind.write.bits v.width.bits ⟨c, k⟩ off := ⟨hword, hdev⟩
  rw [hp.decode_bus,
    decodeBus_write (n := v.width) (hdev ▸ hc) (by rw [hp.wcBits, Width.ofBits_bits]),
    ofWord_eq_of_lowBytes hvalue, hp.wcBits, hdev, hp.argBits]

/-- A bus read at a GPIO register's offset is the register's read request. -/
theorem decode_gpioRead (h : isBusRead r .gpio k n (gpioOffset reg)) :
    decode r = .ok (gpioReadInstr reg k n) := by
  rw [decode_of_isBusRead rfl h]
  cases reg <;> rfl

/-- A bus write at a GPIO register's offset is the register's write request. -/
theorem decode_gpioWrite (h : isBusWrite r .gpio k v (gpioOffset reg)) :
    decode r = .ok (gpioWriteInstr reg k v) := by
  rw [decode_of_isBusWrite rfl h]
  cases reg <;> rfl

end access

/-! ### Register reads (R44) -/

/-- The ten read rules are those of `Gpio.readReg`, at the registers' offsets. -/
theorem gpioReads_eq :
    gpioReads = gpioRegs.map fun reg => ⟨gpioOffset reg, gpioReadInstr reg, fun g => g.readReg reg⟩ :=
  rfl

/-- Settles O10: every row is the read of one register, and every register is read alike. -/
theorem gpioReadsReturnTheRegister : Obligations.GpioReadsReturnTheRegister := by
  unfold Obligations.GpioReadsReturnTheRegister
  intro row hrow k n s g hg
  rw [gpioReads_eq] at hrow
  obtain ⟨reg, _, rfl⟩ := List.mem_map.mp hrow
  refine ⟨fun r h => decode_gpioRead h, BusVal.ofWord n (g.readReg reg), busVal_ofWord_width n _,
    busVal_ofWord_toNat n _, ?_⟩
  rw [exec_gpioReadInstr, readGpio_of_some hg]
  rfl

/-! ### Writes of the configuration registers (R45) -/

/-- `Eff` is the number that the statements give it (R45). -/
theorem eff_toNat_eq_storedValue (nw : NarrowWrite) (old : Word) (v : BusVal) :
    (eff nw old v).toNat = storedValue nw old v := by
  rw [eff_toNat]
  cases nw <;> rfl

/-- The row is that of register `reg`, whose write runs no update and puts `Eff` in its place. -/
structure IsStoreOf (row : GpioStore) (reg : GpioReg) : Prop where
  off_eq : row.off = gpioOffset reg
  instr_eq : row.instr = gpioWriteInstr reg
  not_output : isOutputReg reg = false
  store_eq (g : Gpio) (nw : NarrowWrite) (v : BusVal) :
    g.store nw reg v = row.put g (eff nw (row.get g) v)

theorem gpioStores_register {row : GpioStore} (h : row ∈ gpioStores) : ∃ reg, IsStoreOf row reg := by
  fin_cases h
  · exact ⟨.MODE, rfl, rfl, rfl, fun _ _ _ => rfl⟩
  · exact ⟨.OTYPE, rfl, rfl, rfl, fun _ _ _ => rfl⟩
  · exact ⟨.OSPEED, rfl, rfl, rfl, fun _ _ _ => rfl⟩
  · exact ⟨.PUPD, rfl, rfl, rfl, fun _ _ _ => rfl⟩
  · exact ⟨.LCK, rfl, rfl, rfl, fun _ _ _ => rfl⟩
  · exact ⟨.AFRL, rfl, rfl, rfl, fun _ _ _ => rfl⟩
  · exact ⟨.AFRH, rfl, rfl, rfl, fun _ _ _ => rfl⟩

section stores

variable {row : GpioStore} {s : State} {k : Nat} {g : Gpio}

theorem decode_gpioStore (hrow : row ∈ gpioStores) {r : Request} {v : BusVal}
    (h : isBusWrite r .gpio k v row.off) : decode r = .ok (row.instr k v) := by
  obtain ⟨reg, hreg⟩ := gpioStores_register hrow
  rw [hreg.off_eq] at h
  rw [hreg.instr_eq, decode_gpioWrite h]

/-- A write of a configuration register stores `Eff` and does nothing else (R65 to R77). -/
theorem exec_gpioStore (hrow : row ∈ gpioStores) (hg : s.gpios[k]? = some g) (v : BusVal) :
    exec (row.instr k v) s = .next { s with
      gpios := s.gpios.set k (row.put g (eff s.cfg.narrowWrite (row.get g) v))
      reply := .done } := by
  obtain ⟨reg, hreg⟩ := gpioStores_register hrow
  rw [hreg.instr_eq, exec_gpioWriteInstr, hreg.not_output, if_neg Bool.false_ne_true,
    writeGpio_of_some hg, hreg.store_eq]

end stores

/-- Settles O13: six of the seven registers that a write only stores. -/
theorem configurationWritesStoreAndNothingElse :
    Obligations.ConfigurationWritesStoreAndNothingElse := by
  unfold Obligations.ConfigurationWritesStoreAndNothingElse
  intro row hrow _ k v s g hg
  exact ⟨fun r h => decode_gpioStore hrow h, _, eff_toNat_eq_storedValue _ _ v,
    exec_gpioStore hrow hg v⟩

/-- Settles O14: MODE is the seventh register that a write only stores. -/
theorem modeWritesStoreAndNothingElse : Obligations.ModeWritesStoreAndNothingElse := by
  unfold Obligations.ModeWritesStoreAndNothingElse
  intro k v s g hg
  have hmode : (⟨0x00, .gpioWrMode, fun g => g.mode, fun g w => { g with mode := w }⟩ : GpioStore) ∈
      gpioStores := List.mem_cons_self
  exact ⟨fun r h => decode_gpioStore hmode h, _, eff_toNat_eq_storedValue _ _ v,
    exec_gpioStore hmode hg v⟩

end Sys2Proof.Machine
end

section
/-! # GPIO data registers (spec/41_gpio_data.md R79 to R86): the writes of ODR and BSRR with the
update algorithm they run, the ignored write of IDR, and the input event. -/

namespace Sys2Proof.Machine

open Sys2Proof.Config Sys2Proof.Claims

/-! ### What the devices hold after the notifications (R86, R113) -/

section received

variable {s t : State} {g g' : Gpio} {ds : List Delivery}

/-- LEDs that each receive the notifications hold what R113 says. -/
theorem ledsReceived_of_receive
    (h : ∀ n, t.leds[n]? = s.leds[n]?.map fun l : Led => l.receive n ds) : ledsReceived s t ds := by
  intro n l hl
  rw [h n, hl, Option.map_some, Led.receive_eq]

/-- A pin's IDR bit depends on the gates of its controller and on the old bit alone (R86). -/
theorem idrBitAfter_congr (hmode : g'.mode = g.mode) (hpupd : g'.pupd = g.pupd)
    (hidr : g'.idr = g.idr) (n j : Nat) : idrBitAfter n g' ds j = idrBitAfter n g ds j := by
  simp only [idrBitAfter, hmode, hpupd, hidr]

end received

/-! ### The update algorithm (R79) -/

section update

variable {s t : State} {k : Nat} {g g' : Gpio}

/-- Driving the wires of a controller that was given new output data has the outcome of R79: the
others receive notifications alone, and so does the controller besides its new data and wires. -/
theorem updateOutcome_of_driven (hg : s.gpios[k]? = some g)
    (hdata : g' = { g with odr := g'.odr, bsr := g'.bsr })
    (hd : GpioDriven { s with gpios := s.gpios.set k g' } t k { g' with odrOld := g'.odr }
      (outsAfter g' pins) g'.notifies) : updateOutcome s (t.answer .done) k g' := by
  obtain ⟨hk, _⟩ := List.getElem?_eq_some_iff.mp hg
  obtain ⟨hgpios, hleds⟩ := hd.lengths (by rwa [List.length_set])
  have hothers : ∀ n, n ≠ k →
      t.gpios[n]? = s.gpios[n]?.map fun h : Gpio => h.receive n g'.notifies := by
    intro n hn
    rw [hd.others n hn, List.getElem?_set_ne (Ne.symm hn)]
  refine ⟨congrArg (State.answer · .done) hd.frame, by rwa [List.length_set] at hgpios, hleds,
    ⟨_, hd.self, ?registers, ?wires⟩, ?frame, ledsReceived_of_receive hd.leds, ?idr⟩
  case registers => rw [Gpio.receive_eq]
  case wires =>
    intro p
    rw [Gpio.receive_out, outsAfter_pins_getElem]
  case frame =>
    intro n h hn hsome
    exact ⟨_, (hothers n hn).trans (congrArg _ hsome), Gpio.receive_eq n h _⟩
  case idr =>
    intro n h hsome
    by_cases hn : n = k
    · subst hn
      obtain rfl : g = h := Option.some.inj (hg.symm.trans hsome)
      refine ⟨_, hd.self, fun j => ?_⟩
      rw [Gpio.receive_idr_getLsbD]
      exact idrBitAfter_congr (congrArg Gpio.mode hdata) (congrArg Gpio.pupd hdata)
        (congrArg Gpio.idr hdata) n j
    · exact ⟨_, (hothers n hn).trans (congrArg _ hsome), Gpio.receive_idr_getLsbD n h _⟩

/-- A write of output data completes with the outcome of R79 (R83, R85). -/
theorem writeOutput_outcome (hg : s.gpios[k]? = some g) (f : Gpio → Gpio)
    (hdata : f g = { g with odr := (f g).odr, bsr := (f g).bsr }) :
    ∃ t, writeOutput k s f = .next t ∧ updateOutcome s t k (f g) := by
  obtain ⟨t, ht, hd⟩ := writeOutput_driven hg f
  exact ⟨_, ht, updateOutcome_of_driven hg hdata hd⟩

end update

/-! ### Writes of the data registers (R81, R83, R85) -/

/-- Settles O17: ODR takes `Eff`, and a write of output data has the outcome of R79. -/
theorem odrWriteRunsTheUpdateAlgorithm : Obligations.OdrWriteRunsTheUpdateAlgorithm := by
  unfold Obligations.OdrWriteRunsTheUpdateAlgorithm
  intro k v s g hg
  obtain ⟨t, ht, hout⟩ :=
    writeOutput_outcome hg (fun g => g.store s.cfg.narrowWrite .ODR v) rfl
  exact ⟨fun r h => decode_gpioWrite (reg := .ODR) h, _, t, eff_toNat_eq_storedValue _ _ v, ht,
    hout⟩

/-- ODR after a BSRR write, with the clear looked at first because it wins (R85). -/
theorem bsrrOdr_getLsbD_eq_ite (odr v : Word) (j : Nat) :
    ((odr ||| bsrrSet v) &&& ~~~(bsrrReset v)).getLsbD j =
      if j < 16 then
        if v.getLsbD (16 + j) then false else if v.getLsbD j then true else odr.getLsbD j
      else odr.getLsbD j := by
  rw [bsrrOdr_getLsbD]
  cases v.getLsbD (16 + j) with
  | true => rfl
  | false => cases v.getLsbD j <;> simp

/-- Settles O18: the bits are those of set-then-clear, and a write of output data has the outcome of
R79. -/
theorem bsrrWriteSetsThenClears : Obligations.BsrrWriteSetsThenClears := by
  unfold Obligations.BsrrWriteSetsThenClears
  intro k v s g hg
  obtain ⟨t, ht, hout⟩ :=
    writeOutput_outcome hg (fun g => g.store s.cfg.narrowWrite .BSRR v) rfl
  exact ⟨fun r h => decode_gpioWrite (reg := .BSRR) h, _, t,
    bsrrOdr_getLsbD_eq_ite g.odr v.zext, ht, hout⟩

/-- Settles O15: the write's meaning answers and changes nothing. -/
theorem idrWritesAreIgnored : Obligations.IdrWritesAreIgnored := by
  unfold Obligations.IdrWritesAreIgnored
  intro k v s g hg
  exact ⟨fun r h => decode_gpioWrite (reg := .IDR) h, s.onGpio_of_some hg _⟩

/-! ### The input event (R86) -/

/-- A PIN_IN at a pin of a GPIO controller is the pin's input event, its level normalised (R56,
D9). -/
theorem decode_pinInGpio {r : Request} {k : Nat} {pin : Fin 16} {b : Bool}
    (h : r.Presents 3#4 0#2 ⟨.gpio, k⟩ (BitVec.ofNat 16 pin.val)) (hb : b = true ↔ r.level ≠ 0) :
    decode r = .ok (.pinInGpio k pin b) := by
  have hlevel : decide (r.level ≠ 0) = b :=
    Bool.eq_iff_iff.mpr (decide_eq_true_iff.trans hb.symm)
  rw [h.decode_pinIn, decodePinIn, hlevel, h.argBits]
  simp [h.dev_eq, toNat_ofNat_of_lt (show pin.val < 64 by omega)]

/-- IDR after an input event, bit by bit: the pin's bit takes the level if the gate is open. -/
theorem Gpio.onLevel_idr_getLsbD (g : Gpio) (i : Fin 16) (b : Bool) (j : Nat) :
    (g.onLevel i b).idr.getLsbD j =
      if j = i.val ∧ g.inEnabled i = true then b else g.idr.getLsbD j := by
  rw [Gpio.onLevel_eq]
  by_cases hgate : g.inEnabled i = true
  · simp [hgate, setBit_getLsbD]
  · simp [hgate]

/-- An input event samples into the controller and does nothing else. -/
theorem execPinInGpio_of_some {s : State} {k : Nat} {g : Gpio} (hg : s.gpios[k]? = some g)
    (pin : Fin 16) (b : Bool) :
    execPinInGpio k pin b s =
      .next { s with gpios := s.gpios.set k (g.onLevel pin b), reply := .done } := by
  rw [execPinInGpio, State.onGpio_of_some hg, State.deliver, State.modifyGpio_of_some hg]
  rfl

/-- Settles O23: sampling changes one IDR bit, and only through the open input gate. -/
theorem inputEventSamplesThroughTheGate : Obligations.InputEventSamplesThroughTheGate := by
  unfold Obligations.InputEventSamplesThroughTheGate
  intro k pin b s g hg
  obtain ⟨_, hgate, _⟩ := pinGatesAreNeverBothOpen g pin
  refine ⟨fun r hword hdev hb => decode_pinInGpio ⟨hword, hdev⟩ hb, (g.onLevel pin b).idr,
    fun j => ?_, ?_⟩
  · rw [Gpio.onLevel_idr_getLsbD]
    simp only [hgate, and_comm]
  · show execPinInGpio k pin b s = _
    rw [execPinInGpio_of_some hg, Gpio.onLevel_eq]

end Sys2Proof.Machine
end

section
/-! # The CSR bank (spec/42_csr_bank.md R88 to R91): the reads and the writes of its 14 registers, and
that no other request depends on them. -/

namespace Sys2Proof.Machine

open Sys2Proof.Config Sys2Proof.Claims

/-! ### The offsets of the bank (R39, R88) -/

/-- DEF_RCC ends at 0x34. -/
theorem le_of_mem_defRcc {off : BitVec 16} (h : off ∈ defRcc) : off.toNat ≤ 0x34 := by
  fin_cases h <;> decide

/-- An offset above the last register or between two registers is not defined. -/
theorem not_mem_defRcc {off : BitVec 16} (h : 0x34 < off.toNat ∨ off.toNat % 4 ≠ 0) :
    off ∉ defRcc := by
  intro hmem
  have hle := le_of_mem_defRcc hmem
  have haligned : off.toNat % 4 = 0 := defOffsets_aligned (c := .csr) hmem
  omega

section rows

variable {row : CsrReg} {r : Request} {k : Nat} {n : Width} {v : BusVal} {s : State} {b : CsrBank}

/-- A bus read at `4m` is the read request of register `m`. -/
theorem decode_csrRead (hrow : row ∈ csrRegs)
    (h : isBusRead r .csr k n (BitVec.ofNat 16 (4 * row.m.val))) :
    decode r = .ok (row.read k n) := by
  rw [decode_of_isBusRead rfl h]
  fin_cases hrow <;> rfl

/-- A bus write at `4m` is the write request of register `m`. -/
theorem decode_csrWrite (hrow : row ∈ csrRegs)
    (h : isBusWrite r .csr k v (BitVec.ofNat 16 (4 * row.m.val))) :
    decode r = .ok (row.write k v) := by
  rw [decode_of_isBusWrite rfl h]
  fin_cases hrow <;> rfl

end rows

/-- Settles O11: the reads of the 14 registers are one operation, and other offsets are not in
DEF_RCC. -/
theorem csrReadsReturnTheRegister : Obligations.CsrReadsReturnTheRegister := by
  unfold Obligations.CsrReadsReturnTheRegister
  constructor
  · intro k n off r h hoff
    rw [decode_of_isBusRead rfl h, decodeRead_of_undefined (not_mem_defRcc hoff)]
  · intro row hrow k n s b hb
    refine ⟨fun r h => decode_csrRead hrow h, BusVal.ofWord n b.regs[row.m],
      busVal_ofWord_width n _, busVal_ofWord_toNat n _, ?_⟩
    rw [exec_csrRead hrow, readCsr_of_some hb]
    rfl

/-- Settles O16: the writes of the 14 registers are one operation, and its hook does nothing (R90). -/
theorem csrWritesStoreOneRegister : Obligations.CsrWritesStoreOneRegister := by
  unfold Obligations.CsrWritesStoreOneRegister
  intro row hrow k v s b hb
  refine ⟨fun r h => decode_csrWrite hrow h, _, eff_toNat_eq_storedValue _ _ v, ?_⟩
  rw [exec_csrWrite hrow, writeCsr_of_some hb]

/-! ### States that differ in their CSR banks alone (R91) -/

/-- The state with other CSR banks. -/
def State.withCsrs (s : State) (banks : List CsrBank) : State := { s with csrs := banks }

section withCsrs

variable (s : State) (banks : List CsrBank) (k : Nat)

@[simp] theorem State.withCsrs_gpios : (s.withCsrs banks).gpios = s.gpios := rfl
@[simp] theorem State.withCsrs_csrs : (s.withCsrs banks).csrs = banks := rfl
@[simp] theorem State.withCsrs_buttons : (s.withCsrs banks).buttons = s.buttons := rfl
@[simp] theorem State.withCsrs_leds : (s.withCsrs banks).leds = s.leds := rfl

theorem State.gpioWire_withCsrs (p : Fin 64) : (s.withCsrs banks).gpioWire k p = s.gpioWire k p := rfl

theorem State.buttonWire_withCsrs : (s.withCsrs banks).buttonWire k = s.buttonWire k := rfl

theorem State.modifyGpio_withCsrs (f : Gpio → Gpio) :
    (s.withCsrs banks).modifyGpio k f = (s.modifyGpio k f).withCsrs banks := rfl

theorem State.hasDevice_withCsrs (h : banks.length = s.csrs.length) (d : DevRef) :
    (s.withCsrs banks).hasDevice d = s.hasDevice d := by
  obtain ⟨c, n⟩ := d
  cases c with
  | csr => simp [State.hasDevice, h]
  | gpio | button | led => rfl

end withCsrs

/-- An answer whose state has other CSR banks. -/
def resultWithCsrs (r : Result) (banks : List CsrBank) : Result :=
  match r with
  | .next s => .next (s.withCsrs banks)
  | .fault e => .fault e
  | .refused e => .refused e

/-- The change of the state neither depends on the CSR banks nor touches them. -/
def CommutesWithCsrs (op : State → State) : Prop :=
  ∀ s banks, op (s.withCsrs banks) = (op s).withCsrs banks

/-- The operation answers alike whatever the CSR banks hold, and leaves them as they are. Their number
counts: a fault row asks whether its target exists. -/
def IgnoresCsrs (op : State → Result) : Prop :=
  ∀ s banks, banks.length = s.csrs.length →
    op (s.withCsrs banks) = resultWithCsrs (op s) banks

/-- A completed request leaves the banks as they are: they may be replaced by themselves. -/
theorem IgnoresCsrs.csrs_eq {op : State → Result} (h : IgnoresCsrs op) {s t : State}
    (ht : op s = .next t) : t.csrs = s.csrs := by
  have hself : op s = resultWithCsrs (op s) s.csrs := h s s.csrs rfl
  rw [ht] at hself
  have hwith : t = t.withCsrs s.csrs := Host.Outcome.next.inj hself
  calc t.csrs
    _ = (t.withCsrs s.csrs).csrs := congrArg State.csrs hwith
    _ = s.csrs := t.withCsrs_csrs s.csrs

section ignores

variable {k : Nat}

/-! ### Wires and the update algorithm -/

theorem deliver_commutesWithCsrs (sink : Sink) (b : Bool) :
    CommutesWithCsrs fun s => s.deliver sink b := by
  intro s banks
  cases sink <;> rfl

/-- Performing a list of changes. -/
theorem foldl_commutesWithCsrs {α : Type} {f : State → α → State}
    (h : ∀ a, CommutesWithCsrs fun s => f s a) (l : List α) :
    CommutesWithCsrs fun s => l.foldl f s := fun _ banks =>
  List.foldl_hom (State.withCsrs · banks) fun s a => h a s banks

theorem deliverAll_commutesWithCsrs (subs : List Sink) (b : Bool) :
    CommutesWithCsrs fun s => s.deliverAll subs b :=
  foldl_commutesWithCsrs (fun sink => deliver_commutesWithCsrs sink b) subs

/-- SetLevel at a wire (R109): it is put in place and notifies, if the level is new. -/
theorem setLevel_commutesWithCsrs {put : State → State} (hput : CommutesWithCsrs put) (w : Wire)
    (b : Bool) :
    CommutesWithCsrs fun s => if b = w.level then s else (put s).deliverAll w.subs b := by
  intro s banks
  dsimp only
  split
  case isTrue => rfl
  case isFalse =>
    rw [hput s banks]
    exact deliverAll_commutesWithCsrs w.subs b (put s) banks

theorem setGpioLevel_commutesWithCsrs (p : Fin 64) (b : Bool) :
    CommutesWithCsrs fun s => s.setGpioLevel k p b := by
  intro s banks
  simp only [State.setGpioLevel, State.gpioWire_withCsrs]
  cases s.gpioWire k p with
  | none => rfl
  | some w =>
    exact setLevel_commutesWithCsrs (put := fun s => s.setGpioWire k p { w with level := b })
      (fun _ _ => rfl) w b s banks

theorem setButtonLevel_commutesWithCsrs (b : Bool) :
    CommutesWithCsrs fun s => s.setButtonLevel k b := by
  intro s banks
  simp only [State.setButtonLevel, State.buttonWire_withCsrs]
  cases s.buttonWire k with
  | none => rfl
  | some w =>
    exact setLevel_commutesWithCsrs (put := fun s => s.setButtonWire k { w with level := b })
      (fun _ _ => rfl) w b s banks

theorem updatePin_commutesWithCsrs (changed : Word) (q : Fin 16) :
    CommutesWithCsrs fun s => s.updatePin k changed q := by
  intro s banks
  simp only [State.updatePin, State.withCsrs_gpios]
  cases s.gpios[k]? with
  | none => rfl
  | some g =>
    dsimp only
    split
    case isTrue => exact setGpioLevel_commutesWithCsrs (endpointOf q) (f1 g.odr q) s banks
    case isFalse => rfl

/-- The update algorithm neither reads nor writes a CSR bank (R79, R91). -/
theorem update_commutesWithCsrs : CommutesWithCsrs fun s => s.update k := by
  intro s banks
  simp only [State.update, State.withCsrs_gpios]
  cases s.gpios[k]? with
  | none => rfl
  | some g =>
    have hpins : pins.foldl (State.updatePin k g.changed) (s.withCsrs banks) =
        (pins.foldl (State.updatePin k g.changed) s).withCsrs banks :=
      foldl_commutesWithCsrs (updatePin_commutesWithCsrs g.changed) pins s banks
    simp only [hpins, State.modifyGpio_withCsrs]

/-! ### Requests -/

/-- A request that completes. -/
theorem next_ignoresCsrs {op : State → State} (h : CommutesWithCsrs op) :
    IgnoresCsrs fun s => .next (op s) := fun s banks _ =>
  congrArg Host.Outcome.next (h s banks)

/-- A request that completes with a given reply. -/
theorem done_ignoresCsrs {op : State → State} (h : CommutesWithCsrs op) :
    IgnoresCsrs fun s => .next ((op s).answer .done) :=
  next_ignoresCsrs fun s banks => congrArg (State.answer · .done) (h s banks)

theorem onGpio_ignoresCsrs {f : State → Gpio → Result} (h : ∀ g, IgnoresCsrs fun s => f s g) :
    IgnoresCsrs fun s => s.onGpio k (f s) := by
  intro s banks hlen
  simp only [State.onGpio, State.withCsrs_gpios]
  cases s.gpios[k]? with
  | none => rfl
  | some g => exact h g s banks hlen

theorem onButton_ignoresCsrs {f : State → Button → Result} (h : ∀ u, IgnoresCsrs fun s => f s u) :
    IgnoresCsrs fun s => s.onButton k (f s) := by
  intro s banks hlen
  simp only [State.onButton, State.withCsrs_buttons]
  cases s.buttons[k]? with
  | none => rfl
  | some u => exact h u s banks hlen

theorem onLed_ignoresCsrs {f : State → Led → Result} (h : ∀ l, IgnoresCsrs fun s => f s l) :
    IgnoresCsrs fun s => s.onLed k (f s) := by
  intro s banks hlen
  simp only [State.onLed, State.withCsrs_leds]
  cases s.leds[k]? with
  | none => rfl
  | some l => exact h l s banks hlen

/-- A request that asks for one more device. -/
theorem ite_hasDevice_ignoresCsrs {op : State → State} (d : DevRef) (h : CommutesWithCsrs op) :
    IgnoresCsrs fun s => if s.hasDevice d then .next (op s) else .refused (.noSuchDevice d) := by
  intro s banks hlen
  simp only [State.hasDevice_withCsrs s banks hlen]
  split
  case isTrue => exact next_ignoresCsrs h s banks hlen
  case isFalse => rfl

/-- A RESTORE: what the device makes of the record does not depend on the banks, nor does putting it in
place. -/
theorem accepted_map_ignoresCsrs {α : Type} {o : State → Option α} {put : State → α → State}
    (ho : ∀ s banks, o (State.withCsrs s banks) = o s)
    (hput : ∀ a, CommutesWithCsrs fun s => put s a) :
    IgnoresCsrs fun s => accepted ((o s).map (put s)) := by
  intro s banks hlen
  simp only [ho]
  cases o s with
  | none => rfl
  | some a => exact done_ignoresCsrs (hput a) s banks hlen

theorem readGpio_ignoresCsrs (r : GpioReg) (k : Nat) (n : Width) : IgnoresCsrs (readGpio r k n) :=
  onGpio_ignoresCsrs fun _ => next_ignoresCsrs fun _ _ => rfl

theorem writeGpio_ignoresCsrs {f : State → Gpio → Gpio}
    (hf : ∀ s banks, f (State.withCsrs s banks) = f s) :
    IgnoresCsrs fun s => writeGpio k s (f s) :=
  onGpio_ignoresCsrs fun _ => done_ignoresCsrs fun s banks => by rw [hf]; rfl

theorem writeOutput_ignoresCsrs {f : State → Gpio → Gpio}
    (hf : ∀ s banks, f (State.withCsrs s banks) = f s) :
    IgnoresCsrs fun s => writeOutput k s (f s) :=
  onGpio_ignoresCsrs fun _ => done_ignoresCsrs fun s banks => by
    rw [hf]
    exact update_commutesWithCsrs (s.modifyGpio k (f s)) banks

theorem invalidAccess_ignoresCsrs (kind : AccessKind) (dev : DevRef) (off : BitVec 16) :
    IgnoresCsrs (invalidAccess kind dev off) :=
  ite_hasDevice_ignoresCsrs dev fun _ _ => rfl

theorem execConnectGpio_ignoresCsrs (k : Nat) (p : Fin 64) (sink : Sink) :
    IgnoresCsrs (execConnectGpio k p sink) :=
  onGpio_ignoresCsrs fun _ => ite_hasDevice_ignoresCsrs (sinkDev sink) fun _ _ => rfl

theorem execConnectButton_ignoresCsrs (k : Nat) (sink : Sink) :
    IgnoresCsrs (execConnectButton k sink) :=
  onButton_ignoresCsrs fun _ => ite_hasDevice_ignoresCsrs (sinkDev sink) fun _ _ => rfl

theorem execByteInButton_ignoresCsrs (k : Nat) (x : Byte) : IgnoresCsrs (execByteInButton k x) :=
  onButton_ignoresCsrs fun _ => done_ignoresCsrs fun s banks =>
    setButtonLevel_commutesWithCsrs (x != 0#8)
      (s.modifyButton k fun b => { b with lastLevel := x != 0#8 }) banks

theorem execSave_ignoresCsrs {dev : DevRef} (h : dev.cls ≠ .csr) : IgnoresCsrs (execSave dev) := by
  obtain ⟨c, k⟩ := dev
  cases c with
  | gpio => exact onGpio_ignoresCsrs fun _ => next_ignoresCsrs fun _ _ => rfl
  | csr => exact absurd rfl h
  | button => exact onButton_ignoresCsrs fun _ => next_ignoresCsrs fun _ _ => rfl
  | led => exact onLed_ignoresCsrs fun _ => next_ignoresCsrs fun _ _ => rfl

theorem execRestore_ignoresCsrs {dev : DevRef} (h : dev.cls ≠ .csr) (fields : Record) :
    IgnoresCsrs (execRestore dev fields) := by
  obtain ⟨c, k⟩ := dev
  cases c with
  | gpio =>
    exact onGpio_ignoresCsrs fun _ => accepted_map_ignoresCsrs (fun _ _ => rfl) fun _ _ _ => rfl
  | csr => exact absurd rfl h
  | button =>
    exact onButton_ignoresCsrs fun _ => accepted_map_ignoresCsrs (fun _ _ => rfl) fun _ _ _ => rfl
  | led =>
    exact onLed_ignoresCsrs fun _ => accepted_map_ignoresCsrs (fun _ _ => rfl) fun _ _ _ => rfl

end ignores

/-- No request that goes elsewhere depends on a CSR bank. The cases are grouped by the shared
operation. -/
theorem exec_ignoresCsrs {i : Instr} (h : ¬ usesCsr i) : IgnoresCsrs (exec i) := by
  cases i with
  | csrRdReg0 | csrRdReg1 | csrRdReg2 | csrRdReg3 | csrRdReg4 | csrRdReg5 | csrRdReg6 | csrRdReg7
  | csrRdReg8 | csrRdReg9 | csrRdReg10 | csrRdReg11 | csrRdReg12 | csrRdReg13
  | csrWrReg0 | csrWrReg1 | csrWrReg2 | csrWrReg3 | csrWrReg4 | csrWrReg5 | csrWrReg6 | csrWrReg7
  | csrWrReg8 | csrWrReg9 | csrWrReg10 | csrWrReg11 | csrWrReg12 | csrWrReg13 | resetCsr =>
    exact absurd (by simp [usesCsr, csrRegs]) h
  | gpioRdMode | gpioRdOtype | gpioRdOspeed | gpioRdPupd | gpioRdIdr | gpioRdOdr | gpioRdBsrr
  | gpioRdLck | gpioRdAfrl | gpioRdAfrh => exact readGpio_ignoresCsrs _ _ _
  | gpioWrMode | gpioWrOtype | gpioWrOspeed | gpioWrPupd | gpioWrLck | gpioWrAfrl | gpioWrAfrh =>
    exact writeGpio_ignoresCsrs fun _ _ => rfl
  | gpioWrIdr => exact onGpio_ignoresCsrs fun _ => next_ignoresCsrs fun _ _ => rfl
  | gpioWrOdr | gpioWrBsrr => exact writeOutput_ignoresCsrs fun _ _ => rfl
  | busBadwidth | busInvalidOffset => exact invalidAccess_ignoresCsrs _ _ _
  | resetGpio => exact onGpio_ignoresCsrs fun _ => next_ignoresCsrs fun _ _ => rfl
  | resetButton => exact onButton_ignoresCsrs fun _ => next_ignoresCsrs fun _ _ => rfl
  | resetLed => exact onLed_ignoresCsrs fun _ => next_ignoresCsrs fun _ _ => rfl
  | pinInGpio k pin b =>
    exact onGpio_ignoresCsrs fun _ => done_ignoresCsrs (deliver_commutesWithCsrs (.gpio k pin) b)
  | pinInLed k b =>
    exact onLed_ignoresCsrs fun _ => done_ignoresCsrs (deliver_commutesWithCsrs (.led k) b)
  | connectGpio k p sink => exact execConnectGpio_ignoresCsrs k p sink
  | connectButton k sink => exact execConnectButton_ignoresCsrs k sink
  | byteInButton k x => exact execByteInButton_ignoresCsrs k x
  | save dev =>
    refine execSave_ignoresCsrs fun hcls => h (.inr (.inr (.inl ⟨dev.idx, ?_⟩)))
    rw [← hcls]
  | restore dev fields =>
    refine execRestore_ignoresCsrs (fun hcls => h (.inr (.inr (.inr ⟨dev.idx, fields, ?_⟩)))) fields
    rw [← hcls]

/-- Settles O46: such a request answers alike with other banks, and so leaves its own as they are. -/
theorem csrValuesAffectNothingElse : Obligations.CsrValuesAffectNothingElse := by
  unfold Obligations.CsrValuesAffectNothingElse
  intro i s banks hi hlen
  have hignores := exec_ignoresCsrs hi
  have hexec : exec i { s with csrs := banks } = resultWithCsrs (exec i s) banks :=
    hignores s banks hlen
  refine ⟨fun t ht => ⟨hignores.csrs_eq ht, ?_⟩, fun e he => ?_⟩
  · rw [hexec, ht]
    rfl
  · rw [hexec, he]
    rfl

end Sys2Proof.Machine
end

section
/-! # The interconnect (spec/43_pinwire.md R106 to R114): CONNECT, the Button's byte, the LED's input,
the drives that a wire's cached level suppresses, and the board's wiring. -/

namespace Sys2Proof.Machine

open Sys2Proof.Config Sys2Proof.Claims

/-! ### Decoding the interconnect's requests (R56, R58 step 6) -/

/-- The descriptor of CONNECT.BUTTON, field by field (R54, R108). -/
theorem connectButton_word : 0x42000000#32 = mkWord 4#4 0#2 DevClass.button.bits 0#8 0#16 := by decide

/-- The descriptor of BYTE_IN.BUTTON, field by field (R54, R112). -/
theorem byteInButton_word : 0x52000000#32 = mkWord 5#4 0#2 DevClass.button.bits 0#8 0#16 := by decide

/-- The descriptor of PIN_IN.LED, field by field (R54, R113). -/
theorem pinInLed_word : 0x33000000#32 = mkWord 3#4 0#2 DevClass.led.bits 0#8 0#16 := by decide

section decoding

variable {r : Request} {k : Nat}

/-- The operands `(sink, q)` of a CONNECT are the sink they name (R56). -/
theorem decodeSink_of_isSink {sink : Sink} (h : isSink r sink) : decodeSink r = some sink := by
  cases sink with
  | gpio n q =>
    obtain ⟨hdev, hpin⟩ := h
    simp [decodeSink, hdev, hpin]
  | led n =>
    obtain ⟨hdev, hpin⟩ := h
    simp [decodeSink, hdev, hpin]

theorem decode_connectGpio {p : Fin 64} {sink : Sink}
    (h : r.Presents 4#4 0#2 ⟨.gpio, k⟩ (BitVec.ofNat 16 p.val)) (hs : isSink r sink) :
    decode r = .ok (.connectGpio k p sink) := by
  rw [h.decode_connect, decodeConnect, decodeSink_of_isSink hs, h.argBits]
  simp [h.dev_eq, toNat_ofNat_of_lt p.isLt]

theorem decode_connectButton {sink : Sink} (h : r.Presents 4#4 0#2 ⟨.button, k⟩ 0#16)
    (hs : isSink r sink) : decode r = .ok (.connectButton k sink) := by
  rw [h.decode_connect, decodeConnect, decodeSink_of_isSink hs]
  simp [h.dev_eq, h.argBits]

theorem decode_byteInButton (h : r.Presents 5#4 0#2 ⟨.button, k⟩ 0#16) :
    decode r = .ok (.byteInButton k r.byte) := by
  rw [h.decode_byteIn, decodeByteIn]
  simp [h.dev_eq, h.argBits]

/-- The level of a PIN_IN is normalised (R56, D9). -/
theorem decode_pinInLed (h : r.Presents 3#4 0#2 ⟨.led, k⟩ 0#16) :
    decode r = .ok (.pinInLed k (decide (r.level ≠ 0))) := by
  rw [h.decode_pinIn, decodePinIn]
  simp [h.dev_eq, h.argBits]

end decoding

/-! ### CONNECT (R108) -/

/-- A CONNECT keeps the level and appends last, at a new wire of level 0 if there was none. -/
theorem connectWire_spec (w : Option Wire) (sink : Sink) :
    (w = none → connectWire w sink = ⟨false, [sink]⟩) ∧
    (∀ w0, w = some w0 → connectWire w sink = ⟨w0.level, w0.subs ++ [sink]⟩) :=
  ⟨by rintro rfl; rfl, by rintro w0 rfl; rfl⟩

/-- Settles O26: with the sink there, a CONNECT puts `connectWire` at the endpoint and nothing else. -/
theorem connectAppendsTheSubscriberLast : Obligations.ConnectAppendsTheSubscriberLast := by
  unfold Obligations.ConnectAppendsTheSubscriberLast
  intro k sink s hsink
  constructor
  · intro p g hg
    obtain ⟨hnew, happend⟩ := connectWire_spec g.out[p] sink
    refine ⟨fun r hword hdev hs => decode_connectGpio ⟨hword, hdev⟩ hs, _, hnew, happend, ?_⟩
    exact (execConnectGpio_of_some hg p sink).trans (if_pos hsink)
  · intro u hu
    obtain ⟨hnew, happend⟩ := connectWire_spec u.out sink
    refine ⟨fun r hword hdev hs =>
      decode_connectButton ⟨hword.trans connectButton_word, hdev⟩ hs, _, hnew, happend, ?_⟩
    exact (execConnectButton_of_some hu sink).trans (if_pos hsink)

/-! ### The Button's byte (R112) -/

/-- Controllers that each receive the notifications hold in IDR what R86 says. -/
theorem idrsReceived_of_receive {s t : State} {ds : List Delivery}
    (h : ∀ n, t.gpios[n]? = s.gpios[n]?.map fun g : Gpio => g.receive n ds) :
    idrsReceived s t ds := by
  intro n g hg
  refine ⟨g.receive n ds, ?_, fun j => Gpio.receive_idr_getLsbD n g ds j⟩
  rw [h n, hg, Option.map_some]

/-- Settles O25: the Button takes the level and its wire is driven, whose notifications reach IDRs and
LEDs alone. -/
theorem buttonByteDrivesItsWire : Obligations.ButtonByteDrivesItsWire := by
  unfold Obligations.ButtonByteDrivesItsWire
  intro k x s u hu
  obtain ⟨t, ht, hd⟩ := execByteInButton_driven hu x
  obtain ⟨hgpios, hleds⟩ := hd.lengths
  refine ⟨?decode, x != 0#8, t.answer .done, ?level, ht, congrArg (State.answer · .done) hd.frame,
    hgpios, hleds, ?frame, ledsReceived_of_receive hd.leds, idrsReceived_of_receive hd.gpios⟩
  case decode =>
    rintro r hword hdev rfl
    exact decode_byteInButton ⟨hword.trans byteInButton_word, hdev⟩
  case level => rw [bne_iff_ne, ne_eq, ← BitVec.toNat_inj]; rfl
  case frame =>
    intro n g hg
    exact ⟨_, (hd.gpios n).trans (congrArg _ hg), Gpio.receive_eq n g _⟩

/-! ### The LED's input (R113) -/

/-- A level that the host delivers reaches the LED and nothing else. -/
theorem execPinInLed_of_some {s : State} {k : Nat} {l : Led} (hl : s.leds[k]? = some l) (b : Bool) :
    execPinInLed k b s = .next { s with leds := s.leds.set k (l.onLevel b), reply := .done } := by
  rw [execPinInLed, State.onLed_of_some hl, State.deliver, State.modifyLed_of_some hl]
  rfl

/-- Settles O24: an LED keeps and emits without looking at its last level. -/
theorem ledEmitsEveryDelivery : Obligations.LedEmitsEveryDelivery := by
  unfold Obligations.LedEmitsEveryDelivery
  intro k b s l hl
  refine ⟨fun r hword hdev hb => ?_, execPinInLed_of_some hl b⟩
  have hlevel : decide (r.level ≠ 0) = b :=
    Bool.eq_iff_iff.mpr (decide_eq_true_iff.trans hb.symm)
  rw [decode_pinInLed ⟨hword.trans pinInLed_word, hdev⟩, hlevel]

/-! ### Requests in order -/

theorem perform_cons {i : Instr} {s t : State} (h : exec i s = .next t) (is : List Instr) :
    perform (i :: is) s = perform is t := by
  rw [perform, List.foldlM_cons, h]
  rfl

theorem perform_append (is js : List Instr) (s : State) :
    perform (is ++ js) s = (perform is s).bind (perform js) := List.foldlM_append

/-- Requests that each change nothing change nothing together. -/
theorem perform_of_fixed {is : List Instr} {s : State} (h : ∀ i ∈ is, exec i s = .next s) :
    perform is s = some s := by
  induction is with
  | nil => rfl
  | cons i is ih =>
    obtain ⟨hi, his⟩ := List.forall_mem_cons.mp h
    rw [perform_cons hi, ih his]

/-! ### Drives that the cached level suppresses (R109, R140) -/

section suppressed

variable {s : State} {k : Nat} {g : Gpio}

/-- A drive to the wire's own level does nothing (R109). -/
theorem State.setGpioLevel_of_level_eq {p : Fin 64} {w : Wire} {b : Bool}
    (hw : s.gpioWire k p = some w) (hb : w.level = b) : s.setGpioLevel k p b = s := by
  rw [State.setGpioLevel, hw]
  exact if_pos hb.symm

/-- Where every pin that the update algorithm drives has a wire that holds the level already, the update
does no more than to set ODR_old (R79, R109). -/
theorem State.update_of_suppressed (hg : s.gpios[k]? = some g)
    (h : ∀ i, g.emits i = true →
      ∃ w, g.out[endpointOf i] = some w ∧ w.level = g.odr.getLsbD i.val) :
    s.update k = { s with gpios := s.gpios.set k { g with odrOld := g.odr } } := by
  have hpin : ∀ i, s.updatePin k g.changed i = s := by
    intro i
    simp only [State.updatePin, hg, ← Gpio.emits_eq]
    split
    next he =>
      obtain ⟨w, hw, hlevel⟩ := h i he
      exact State.setGpioLevel_of_level_eq (by simpa only [State.gpioWire, hg] using hw) hlevel
    next => rfl
  rw [State.update, hg]
  show (pins.foldl (State.updatePin k g.changed) s).modifyGpio k _ = _
  rw [List.foldl_fixed' hpin, State.modifyGpio_of_some hg]

/-- An ODR write from `ODR_old = 0` that sets bit `i` alone drives no pin but `i` (R79). -/
theorem Gpio.emits_of_single_bit {i j : Fin 16} (hodr : g.odr = BitVec.ofNat 32 (2 ^ i.val))
    (hold : g.odrOld = 0#32) (he : g.emits j = true) : j = i ∧ g.odr.getLsbD j.val = true := by
  have hbit : g.odr.getLsbD j.val = true := by
    obtain ⟨hchanged, _⟩ := Bool.and_eq_true_iff.mp he
    simpa [hold] using hchanged
  refine ⟨Fin.ext ?_, hbit⟩
  rw [hodr, BitVec.getLsbD_ofNat, Nat.testBit_two_pow] at hbit
  obtain ⟨_, hij⟩ := Bool.and_eq_true_iff.mp hbit
  exact (of_decide_eq_true hij).symm

/-- RESET.GPIO loads the controller's reset values and does nothing else (R129). -/
theorem execResetGpio_of_some (hg : s.gpios[k]? = some g) :
    execResetGpio k s =
      .next { s with gpios := s.gpios.set k (g.reset s.cfg), reply := .done } := by
  rw [execResetGpio, State.onGpio_of_some hg, State.modifyGpio_of_some hg]
  rfl

/-- A 4-byte write of MODE stores its value (R45, R65). -/
theorem exec_gpioWrMode_b32 (hg : s.gpios[k]? = some g) (v : Word) :
    exec (.gpioWrMode k (.b32 v)) s =
      .next { s with gpios := s.gpios.set k { g with mode := v }, reply := .done } :=
  writeGpio_of_some hg _

/-- After RESET.GPIO and a 4-byte write of MODE only MODE differs from the reset values. -/
theorem perform_resetGpio_wrMode (hg : s.gpios[k]? = some g) (v : Word) :
    perform [.resetGpio k, .gpioWrMode k (.b32 v)] s =
      some { s with
        gpios := s.gpios.set k { g.reset s.cfg with mode := v }
        reply := .done } := by
  have hreset : exec (.resetGpio k) s = _ := execResetGpio_of_some hg
  rw [perform_cons hreset, perform_cons (exec_gpioWrMode_b32 (getElem?_set_of_some hg _) v),
    List.set_set]
  rfl

/-- An output write whose every drive is suppressed changes the controller's registers alone. -/
theorem writeOutput_of_suppressed (hg : s.gpios[k]? = some g) (f : Gpio → Gpio)
    (h : ∀ i, (f g).emits i = true →
      ∃ w, (f g).out[endpointOf i] = some w ∧ w.level = (f g).odr.getLsbD i.val) :
    writeOutput k s f =
      .next { s with
        gpios := s.gpios.set k { f g with odrOld := (f g).odr }
        reply := .done } := by
  rw [writeOutput, State.onGpio_of_some hg, State.modifyGpio_of_some hg,
    State.update_of_suppressed (getElem?_set_of_some hg _) h, List.set_set]
  rfl

/-- A 4-byte write of ODR whose every drive is suppressed (R45, R83). -/
theorem exec_gpioWrOdr_b32_of_suppressed (hg : s.gpios[k]? = some g) (v : Word)
    (h : ∀ i, ({ g with odr := v } : Gpio).emits i = true →
      ∃ w, g.out[endpointOf i] = some w ∧ w.level = v.getLsbD i.val) :
    exec (.gpioWrOdr k (.b32 v)) s =
      .next { s with
        gpios := s.gpios.set k { g with odr := v, odrOld := v }
        reply := .done } :=
  writeOutput_of_suppressed hg _ h

end suppressed

/-- Settles O49: after RESET.GPIO the ODR write drives no pin but `i`, whose wire the reset left at
level 1. -/
theorem staleWireCacheSuppressesTheDrive : Obligations.StaleWireCacheSuppressesTheDrive := by
  unfold Obligations.StaleWireCacheSuppressesTheDrive
  intro k i s g w hg hw hlevel
  refine ⟨_, _, _, perform_resetGpio_wrMode hg _, getElem?_set_of_some hg _, rfl, ?_, rfl⟩
  refine exec_gpioWrOdr_b32_of_suppressed (getElem?_set_of_some hg _) _ fun j hj => ?_
  obtain ⟨rfl, hbit⟩ := Gpio.emits_of_single_bit rfl rfl hj
  exact ⟨w, hw, hlevel.trans hbit.symm⟩

/-! ### The board's wiring (R114, R133) -/

/-- The connections of R114. -/
def boardConnections : List Instr :=
  [.connectButton 0 (.gpio 0 1), .connectGpio 1 6 (.led 0), .connectGpio 1 7 (.led 1)]

/-- The reset of every device of the board (R133). -/
def boardResets : List Instr :=
  [.resetGpio 0, .resetGpio 1, .resetCsr 0, .resetButton 0, .resetLed 0, .resetLed 1]

/-- The connections give the created devices their wires. -/
theorem perform_boardConnections :
    perform boardConnections State.created = some (State.reset.answer .done) := rfl

/-- The connected devices hold their reset values already. -/
theorem exec_boardReset {i : Instr} (h : i ∈ boardResets) :
    exec i (State.reset.answer .done) = .next (State.reset.answer .done) := by
  fin_cases h <;> rfl

/-- Settles O50: the connections alone give the board, and the resets leave it as it is. -/
theorem boardConstructionGivesTheResetState : Obligations.BoardConstructionGivesTheResetState := by
  unfold Obligations.BoardConstructionGivesTheResetState
  have hboard : perform (boardConnections ++ boardResets) State.created =
      some (State.reset.answer .done) := by
    rw [perform_append, perform_boardConnections]
    exact perform_of_fixed fun _ => exec_boardReset
  exact congrArg (Option.map (State.answer · .none)) hboard

end Sys2Proof.Machine
end

section
/-! # The InvalidOffset fault (spec/60_exceptions.md R116): which bus accesses raise it, and what the two
bus-fault rows do. -/

namespace Sys2Proof.Machine

open Sys2Proof.Claims

/-! ### The two rows -/

section rows

variable {s : State} {dev : DevRef}

theorem invalidAccess_of_hasDevice (hdev : s.hasDevice dev = true) (kind : AccessKind)
    (off : BitVec 16) :
    invalidAccess kind dev off s = .next (s.raiseInvalidOffset dev off kind) := by
  rw [invalidAccess, if_pos hdev]

theorem exec_busBadwidth_of_hasDevice (hdev : s.hasDevice dev = true) (kind : AccessKind)
    (off : BitVec 16) :
    exec (.busBadwidth kind dev off) s = .next (s.raiseInvalidOffset dev off kind) :=
  invalidAccess_of_hasDevice hdev kind off

theorem exec_busInvalidOffset_of_hasDevice (hdev : s.hasDevice dev = true) (kind : AccessKind)
    (wc : BitVec 2) (off : BitVec 16) :
    exec (.busInvalidOffset kind wc dev off) s = .next (s.raiseInvalidOffset dev off kind) :=
  invalidAccess_of_hasDevice hdev kind off

end rows

/-- Settles O38: both rows raise the fault for a device that exists. -/
theorem faultRowsComplete : Obligations.FaultRowsComplete := by
  unfold Obligations.FaultRowsComplete
  intro s kind wc dev off hdev
  exact ⟨s.raiseInvalidOffset dev off kind, rfl, exec_busBadwidth_of_hasDevice hdev kind off,
    exec_busInvalidOffset_of_hasDevice hdev kind wc off⟩

/-! ### The accesses that are not valid (R41) -/

/-- A bus access that is not valid decodes to one of the two rows (R58 steps 2, 3 and 5). -/
theorem decodeBus_of_not_valid {r : Request} (kind : AccessKind)
    (h : ¬ (r.wcBits ≠ 3#2 ∧ r.argBits.toNat % 4 = 0 ∧ r.argBits ∈ defOffsets r.dev.cls)) :
    decodeBus kind r = .busBadwidth kind r.dev r.argBits ∨
      decodeBus kind r = .busInvalidOffset kind r.wcBits r.dev r.argBits := by
  by_cases hreg : hasRegisters r.dev.cls = true
  · by_cases hwc : r.wcBits = 3#2
    · exact .inl (decodeBus_of_badwidth hreg hwc)
    · have hoff : r.argBits ∉ defOffsets r.dev.cls := fun hmem =>
        h ⟨hwc, defOffsets_aligned hmem, hmem⟩
      exact .inr (decodeBus_of_undefined hreg hwc hoff)
  · exact .inr (decodeBus_of_no_registers (Bool.eq_false_iff.mpr hreg))

/-- Such an access raises the fault, whichever row it decodes to (R116). -/
theorem exec_decodeBus_of_not_valid {s : State} {r : Request} (kind : AccessKind)
    (hdev : s.hasDevice r.dev = true)
    (h : ¬ (r.wcBits ≠ 3#2 ∧ r.argBits.toNat % 4 = 0 ∧ r.argBits ∈ defOffsets r.dev.cls)) :
    exec (decodeBus kind r) s = .next (s.raiseInvalidOffset r.dev r.argBits kind) := by
  obtain hrow | hrow := decodeBus_of_not_valid kind h
  · rw [hrow, exec_busBadwidth_of_hasDevice hdev]
  · rw [hrow, exec_busInvalidOffset_of_hasDevice hdev]

/-- Settles O37: the step takes the request, and what it decodes to raises the fault. -/
theorem invalidAccessRecordsAFaultAndNothingElse :
    Obligations.InvalidAccessRecordsAFaultAndNothingElse := by
  unfold Obligations.InvalidAccessRecordsAFaultAndNothingElse
  intro s r rest kind hrun hpending hkind hz hcls hdev hnot
  have htaken : ({ s with pending := rest } : State).hasDevice r.dev = true := hdev
  refine ⟨s.halted || s.cfg.haltOnInvalid, ?_⟩
  rw [step_of_decode_ok hrun hpending (decode_bus hkind hz hcls),
    exec_decodeBus_of_not_valid kind htaken hnot]
  rfl

end Sys2Proof.Machine
end

section
/-! # Reset, save, restore and the hazards of reset (spec/70_reset_and_hazards.md R129 to R138). -/

namespace Sys2Proof.Machine

open Sys2Proof.Config Sys2Proof.Claims

/-! ### Reset (R129 to R131) -/

/-- The RESET request of a device's class. -/
def resetInstr (d : DevRef) : Instr :=
  match d.cls with
  | .gpio => .resetGpio d.idx
  | .csr => .resetCsr d.idx
  | .button => .resetButton d.idx
  | .led => .resetLed d.idx

/-- The state with one device reset, whatever its class. -/
def State.resetDevice (s : State) (d : DevRef) : State :=
  match d.cls with
  | .gpio => s.modifyGpio d.idx (Gpio.reset s.cfg)
  | .csr => s.modifyCsr d.idx (CsrBank.reset s.cfg)
  | .button => s.modifyButton d.idx Button.reset
  | .led => s.modifyLed d.idx Led.reset

section resets

variable {s t : State} {d : DevRef} {k : Nat}

/-- The descriptor of RESET.GPIO, field by field (R54, R129). -/
theorem resetGpio_word : 0x20000000#32 = mkWord 2#4 0#2 DevClass.gpio.bits 0#8 0#16 := by decide

/-- The descriptor of RESET.CSR, field by field (R54, R130). -/
theorem resetCsr_word : 0x21000000#32 = mkWord 2#4 0#2 DevClass.csr.bits 0#8 0#16 := by decide

/-- The descriptor of RESET.BUTTON, field by field (R54, R131). -/
theorem resetButton_word : 0x22000000#32 = mkWord 2#4 0#2 DevClass.button.bits 0#8 0#16 := by decide

/-- The descriptor of RESET.LED, field by field (R54, R131). -/
theorem resetLed_word : 0x23000000#32 = mkWord 2#4 0#2 DevClass.led.bits 0#8 0#16 := by decide

theorem decode_resetInstr {r : Request} (h : r.Presents 2#4 0#2 d 0#16) :
    decode r = .ok (resetInstr d) := by
  rw [h.decode_reset, decodeReset, if_pos h.argBits, h.dev_eq]
  obtain ⟨c, k⟩ := d
  cases c <;> rfl

/-- A lookup whose request then always completes asks for the device and no more. -/
theorem lookup_eq_ite {α : Type} {o : Option α} {r : Result} {u : State}
    (hd : s.hasDevice d = true ↔ ∃ a, o = some a)
    (hr : (∃ a, o = some a ∧ r = .next u) ∨ (o = none ∧ r = .refused (.noSuchDevice d))) :
    r = if s.hasDevice d then .next u else .refused (.noSuchDevice d) := by
  obtain ⟨a, ha, rfl⟩ | ⟨hnone, rfl⟩ := hr
  · rw [if_pos (hd.mpr ⟨a, ha⟩)]
  · rw [if_neg]
    rw [hd, hnone]
    rintro ⟨a, ha⟩
    cases ha

/-- What a reset answers, for all four classes. -/
theorem exec_resetInstr (d : DevRef) (s : State) :
    exec (resetInstr d) s =
      if s.hasDevice d then .next ((s.resetDevice d).answer .done)
      else .refused (.noSuchDevice d) := by
  obtain ⟨c, k⟩ := d
  cases c with
  | gpio => exact lookup_eq_ite (s.hasDevice_gpio k) (s.onGpio_cases k _)
  | csr => exact lookup_eq_ite (s.hasDevice_csr k) (s.onCsr_cases k _)
  | button => exact lookup_eq_ite (s.hasDevice_button k) (s.onButton_cases k _)
  | led => exact lookup_eq_ite (s.hasDevice_led k) (s.onLed_cases k _)

theorem exec_resetCsr_of_some {b : CsrBank} (hb : s.csrs[k]? = some b) :
    exec (.resetCsr k) s =
      .next { s with csrs := s.csrs.set k (b.reset s.cfg), reply := .done } := by
  refine (State.onCsr_of_some hb _).trans ?_
  rw [State.modifyCsr_of_some hb]
  rfl

theorem exec_resetButton_of_some {u : Button} (hu : s.buttons[k]? = some u) :
    exec (.resetButton k) s =
      .next { s with buttons := s.buttons.set k u.reset, reply := .done } := by
  refine (State.onButton_of_some hu _).trans ?_
  rw [State.modifyButton_of_some hu]
  rfl

theorem exec_resetLed_of_some {l : Led} (hl : s.leds[k]? = some l) :
    exec (.resetLed k) s = .next { s with leds := s.leds.set k l.reset, reply := .done } := by
  refine (State.onLed_of_some hl _).trans ?_
  rw [State.modifyLed_of_some hl]
  rfl

theorem State.hasDevice_resetDevice (s : State) (d : DevRef) (r : Reply) :
    ((s.resetDevice d).answer r).hasDevice d = s.hasDevice d := by
  obtain ⟨c, k⟩ := d
  cases c <;> simp [State.hasDevice, State.resetDevice]

/-- Changing an entry twice by a function that settles is changing it once. -/
theorem modify_modify_of_settles {α : Type} {f : α → α} (hf : ∀ a, f (f a) = f a) (l : List α)
    (k : Nat) : (l.modify k f).modify k f = l.modify k f := by
  rw [List.modify_modify_eq, show f ∘ f = f from funext hf]

/-- A device that was reset holds its reset values already. -/
theorem State.resetDevice_resetDevice (s : State) (d : DevRef) (r : Reply) :
    ((s.resetDevice d).answer r).resetDevice d = (s.resetDevice d).answer r := by
  obtain ⟨c, k⟩ := d
  cases c with
  | gpio =>
    exact congrArg (fun l => { s with gpios := l, reply := r })
      (modify_modify_of_settles (f := Gpio.reset s.cfg) (fun _ => rfl) s.gpios k)
  | csr =>
    exact congrArg (fun l => { s with csrs := l, reply := r })
      (modify_modify_of_settles (f := CsrBank.reset s.cfg) (fun _ => rfl) s.csrs k)
  | button =>
    exact congrArg (fun l => { s with buttons := l, reply := r })
      (modify_modify_of_settles (f := Button.reset) (fun _ => rfl) s.buttons k)
  | led =>
    exact congrArg (fun l => { s with leds := l, reply := r })
      (modify_modify_of_settles (f := Led.reset) (fun _ => rfl) s.leds k)

theorem exec_resetInstr_idempotent (h : exec (resetInstr d) s = .next t) :
    exec (resetInstr d) t = .next t := by
  rw [exec_resetInstr] at h
  split at h
  next hd =>
    cases h
    rw [exec_resetInstr, State.hasDevice_resetDevice, if_pos hd, State.resetDevice_resetDevice]
    rfl
  next => cases h

end resets

/-- Settles O31: the four resets are `resetInstr` of the four classes. -/
theorem resetIsIdempotent : Obligations.ResetIsIdempotent := by
  unfold Obligations.ResetIsIdempotent
  intro k i s t hi h
  have hreset : ∃ c, i = resetInstr ⟨c, k⟩ := by
    fin_cases hi
    · exact ⟨.gpio, rfl⟩
    · exact ⟨.csr, rfl⟩
    · exact ⟨.button, rfl⟩
    · exact ⟨.led, rfl⟩
  obtain ⟨c, rfl⟩ := hreset
  exact exec_resetInstr_idempotent h

/-- Settles O28: the vector is the one of the controller's identity, and `Gpio.reset` loads it. -/
theorem gpioResetLoadsTheVector : Obligations.GpioResetLoadsTheVector := by
  unfold Obligations.GpioResetLoadsTheVector
  intro k s g hg
  refine ⟨fun r hword hdev => decode_resetInstr (d := ⟨.gpio, k⟩)
    ⟨hword.trans resetGpio_word, hdev⟩, gpioVector s.cfg g.id, ?_, ?_, ?_,
    execResetGpio_of_some hg⟩
  all_goals
    intro hid
    rw [hid]
    rfl

/-- Settles O29: the registers are RCC_RESET, whose entry for AHBLPENR R29 fixes. -/
theorem csrResetLoadsTheTable : Obligations.CsrResetLoadsTheTable := by
  unfold Obligations.CsrResetLoadsTheTable
  intro k s b hb
  exact ⟨fun r hword hdev => decode_resetInstr (d := ⟨.csr, k⟩)
      ⟨hword.trans resetCsr_word, hdev⟩,
    _, b.reset s.cfg, exec_resetCsr_of_some hb, rfl, rfl, fun _ => rfl,
    fun ⟨hahblpenr, _⟩ => hahblpenr⟩

/-- Settles O30: `Button.reset` and `Led.reset` touch `lastLevel` alone. -/
theorem buttonAndLedResetClearTheLevel : Obligations.ButtonAndLedResetClearTheLevel := by
  unfold Obligations.ButtonAndLedResetClearTheLevel
  intro k s
  exact ⟨fun r hword hdev => decode_resetInstr (d := ⟨.button, k⟩)
      ⟨hword.trans resetButton_word, hdev⟩,
    fun r hword hdev => decode_resetInstr (d := ⟨.led, k⟩) ⟨hword.trans resetLed_word, hdev⟩,
    fun u hu => exec_resetButton_of_some hu, fun l hl => exec_resetLed_of_some hl⟩

/-- Settles O41: at the fixed reset state each part is a finite check. -/
theorem resetMeetsTheInvariant : Obligations.ResetMeetsTheInvariant := by
  unfold Obligations.ResetMeetsTheInvariant
  have hwf : State.reset.cfg.wf := by decide
  have hgpios : ∀ g ∈ State.reset.gpios, ∀ p : Fin 64, endpointOk State.reset g.out[p] = true := by
    decide
  have hbuttons : ∀ u ∈ State.reset.buttons, endpointOk State.reset u.out = true := by decide
  have hshadow : State.reset.ShadowsAgree := by decide
  have hidr : State.reset.IdrHighZero := by decide
  exact ⟨⟨hwf, hgpios, hbuttons, fun hhalted => nomatch hhalted⟩, hshadow, hidr⟩

/-! ### The words of a record (R135) -/

/-- A record of register fields. -/
def wordRecord (fs : List SnapField) (v : SnapField → Word) : Record :=
  fs.map fun f => ⟨f, 32, v f⟩

/-- The field's register in a CSR bank (R135). -/
def csrField (regs : Vector Word 14) (f : SnapField) : Word :=
  match f with
  | .reg m => regs[m]
  | _ => 0#32

theorem gpioRecord_eq (g : Gpio) : gpioRecord g = wordRecord (persisted .gpio) (gpioField g) := rfl

theorem csrRecord_eq (regs : Vector Word 14) :
    csrRecord regs = wordRecord (persisted .csr) (csrField regs) := by
  rw [wordRecord, persisted, List.map_map]
  rfl

theorem reg_mem_persisted (m : Fin 14) : .reg m ∈ persisted .csr :=
  List.mem_map.mpr ⟨m, List.mem_finRange m, rfl⟩

/-- The record that a controller supplies is the one of R135. -/
theorem Gpio.record_eq (g : Gpio) : g.record = gpioRecord g := rfl

theorem csrNumbers_eq : csrNumbers = List.finRange 14 := by decide

theorem mem_csrNumbers (m : Fin 14) : m ∈ csrNumbers := csrNumbers_eq ▸ List.mem_finRange m

/-- The record that a CSR bank supplies is the one of R135. -/
theorem CsrBank.record_eq (b : CsrBank) : b.record = csrRecord b.regs := by
  rw [CsrBank.record, csrNumbers_eq]
  rfl

/-- A 1-bit level as a number, in a field wide enough for it. -/
theorem level_toNat {lw : Nat} (h : 1 ≤ lw) (b : Bool) :
    (BitVec.ofNat lw b.toNat).toNat = if b then 1 else 0 := by
  have hlt : b.toNat < 2 ^ lw :=
    Nat.lt_of_lt_of_le b.toNat_lt (Nat.pow_le_pow_right Nat.two_pos h)
  rw [BitVec.toNat_ofNat, Nat.mod_eq_of_lt hlt]
  cases b <;> rfl

section records

variable {p : Params} {c : DevClass} {f f' : SnapField} {fs : List SnapField}
  {v : SnapField → Word} {rec : Record}

theorem findField_wordRecord (h : f ∈ fs) :
    findField (wordRecord fs v) f 32 = some ⟨f, 32, v f⟩ := by
  induction fs with
  | nil => cases h
  | cons x fs ih =>
    rw [wordRecord, List.map_cons, findField_cons]
    split
    next hx => rw [hx]
    next hx => exact ih ((List.mem_cons.mp h).resolve_left (Ne.symm hx))

theorem restoreWord_wordRecord (h : f ∈ fs) (cur : Word) :
    restoreWord p c (wordRecord fs v) f cur = some (v f) :=
  restoreWord_of_find (findField_wordRecord h) cur

theorem without_wordRecord :
    without f (wordRecord fs v) = wordRecord (fs.filter (· != f)) v := by
  rw [without, wordRecord, List.filter_map]
  rfl

theorem field_ne_of_mem_without : ∀ e ∈ without f rec, e.field ≠ f := by
  intro e he
  simpa using (List.mem_filter.mp he).2

/-- A record that lacks LEGACY_FIELD gives the present value for it and its own for the others
(R136). -/
theorem restoreWord_without (hlegacy : p.legacyField = some (c, f)) (h : f' ∈ fs) (cur : Word) :
    restoreWord p c (without f (wordRecord fs v)) f' cur =
      some (if f' = f then cur else v f') := by
  split
  next hf =>
    subst hf
    rw [restoreWord_of_absent field_ne_of_mem_without, if_pos hlegacy]
  next hf =>
    rw [without_wordRecord, restoreWord_wordRecord]
    exact List.mem_filter.mpr ⟨h, bne_iff_ne.mpr hf⟩

/-- A record that lacks a field other than LEGACY_FIELD gives no value for it (R136). -/
theorem restoreWord_eq_none (h : ∀ e ∈ rec, e.field ≠ f) (hlegacy : p.legacyField ≠ some (c, f))
    (cur : Word) : restoreWord p c rec f cur = none := by
  rw [restoreWord_of_absent h, if_neg hlegacy]

theorem restoreLevel_eq_none (h : ∀ e ∈ rec, e.field ≠ .lastLevel)
    (hlegacy : p.legacyField ≠ some (c, .lastLevel)) (cur : Bool) :
    restoreLevel p c rec cur = none := by
  rw [restoreLevel_of_absent h, if_neg hlegacy]

/-- A record that has the level gives whether it is not 0 (R136). -/
theorem restoreLevel_of_level (x : BitVec p.snapLevelWidth) (cur : Bool) :
    restoreLevel p c [⟨.lastLevel, p.snapLevelWidth, x⟩] cur = some (decide (x.toNat ≠ 0)) := by
  have hzero : x = 0#p.snapLevelWidth ↔ x.toNat = 0 := by rw [← BitVec.toNat_inj]; rfl
  rw [restoreLevel_singleton, Option.some_inj, Bool.eq_iff_iff, bne_iff_ne, decide_eq_true_iff]
  exact hzero.not

/-- If the level is LEGACY_FIELD, a record that lacks it gives the present level (R136). -/
theorem restoreLevel_without (hlegacy : p.legacyField = some (c, f))
    (x : BitVec p.snapLevelWidth) (cur : Bool) :
    restoreLevel p c (without f [⟨.lastLevel, p.snapLevelWidth, x⟩]) cur =
      some (if f = .lastLevel then cur else decide (x.toNat ≠ 0)) := by
  split
  next hf =>
    subst hf
    rw [restoreLevel_of_absent field_ne_of_mem_without, if_pos hlegacy]
  next hf =>
    have hkept : without f [⟨.lastLevel, p.snapLevelWidth, x⟩] =
        [⟨.lastLevel, p.snapLevelWidth, x⟩] :=
      List.filter_eq_self.mpr fun e he => by
        rw [List.mem_singleton.mp he]
        exact bne_iff_ne.mpr (Ne.symm hf)
    rw [hkept, restoreLevel_of_level]

end records

/-! ### Restoring one device (R136) -/

/-- A controller with its persisted registers replaced. -/
def Gpio.withWords (g : Gpio) (v : SnapField → Word) : Gpio :=
  { g with
    mode := v .mode, otype := v .otype, ospeed := v .ospeed, pupd := v .pupd, idr := v .idr
    odr := v .odr, odrOld := v .odr_old, bsr := v .bsr, lck := v .lck, afrl := v .afrl
    afrh := v .afrh }

theorem gpioField_withWords (g : Gpio) (v : SnapField → Word) :
    ∀ f ∈ persisted .gpio, gpioField (g.withWords v) f = v f := by
  simp [persisted, gpioField, Gpio.withWords]

section devices

variable {p : Params} {rec : Record}

/-- If every persisted register has a new value, the controller takes them all. -/
theorem Gpio.restore_of_words {g : Gpio} {v : SnapField → Word}
    (h : ∀ f ∈ persisted .gpio, restoreWord p .gpio rec f (gpioField g f) = some (v f)) :
    Gpio.restore p rec g = some (g.withWords v) := by
  simp only [persisted, List.forall_mem_cons, gpioField] at h
  obtain ⟨hmode, hotype, hospeed, hpupd, hidr, hodr, hodrOld, hbsr, hlck, hafrl, hafrh, _⟩ := h
  simp only [Gpio.restore, hmode, hotype, hospeed, hpupd, hidr, hodr, hodrOld, hbsr, hlck, hafrl,
    hafrh]
  rfl

/-- A restored controller's persisted registers all had a new value. -/
theorem Gpio.words_of_restore {g g' : Gpio} (h : Gpio.restore p rec g = some g') :
    ∀ f ∈ persisted .gpio, restoreWord p .gpio rec f (gpioField g f) = some (gpioField g' f) := by
  simp only [Gpio.restore, Option.pure_def, Option.bind_eq_bind, Option.bind_eq_some_iff,
    Option.some.injEq] at h
  obtain ⟨_, hmode, _, hotype, _, hospeed, _, hpupd, _, hidr, _, hodr, _, hodrOld, _, hbsr, _,
    hlck, _, hafrl, _, hafrh, rfl⟩ := h
  simp only [persisted, List.forall_mem_cons]
  exact ⟨hmode, hotype, hospeed, hpupd, hidr, hodr, hodrOld, hbsr, hlck, hafrl, hafrh,
    List.forall_mem_nil _⟩

/-- If a persisted register has no new value, the record is malformed. -/
theorem Gpio.restore_eq_none {g : Gpio} {f : SnapField} (hf : f ∈ persisted .gpio)
    (h : ∀ cur, restoreWord p .gpio rec f cur = none) : Gpio.restore p rec g = none := by
  cases hr : Gpio.restore p rec g with
  | none => rfl
  | some g' =>
    have hword := Gpio.words_of_restore hr f hf
    rw [h] at hword
    cases hword

theorem CsrBank.restore_eq_none {b : CsrBank} {m : Fin 14}
    (h : ∀ cur, restoreWord p .csr rec (.reg m) cur = none) : CsrBank.restore p rec b = none := by
  have hm : m ∈ csrNumbers := mem_csrNumbers m
  rw [CsrBank.restore]
  generalize csrNumbers = ms at hm
  induction ms generalizing b with
  | nil => cases hm
  | cons n ms ih =>
    rw [List.foldlM_cons]
    obtain rfl | hms := List.mem_cons.mp hm
    · rw [CsrBank.restoreReg, h]
      rfl
    · cases b.restoreReg p rec n with
      | none => rfl
      | some b' => exact ih hms

/-- If every register has a new value, the bank takes them all. -/
theorem CsrBank.restore_eq_ofFn {b : CsrBank} {v : Fin 14 → Word}
    (h : ∀ m : Fin 14, restoreWord p .csr rec (.reg m) b.regs[m] = some (v m)) :
    CsrBank.restore p rec b = some { b with regs := Vector.ofFn v } := by
  obtain ⟨regs, hrestore, hregs⟩ := CsrBank.restore_of_words h
  have hv : regs = Vector.ofFn v := by
    ext i hi : 1
    rw [Vector.getElem_ofFn]
    exact hregs ⟨i, hi⟩
  rw [hrestore, hv]

/-- A controller takes every field of a complete record (R136). -/
theorem Gpio.restore_gpioRecord (p : Params) (g x : Gpio) :
    Gpio.restore p (gpioRecord x) g = some { x with id := g.id, out := g.out, place := g.place } := by
  rw [gpioRecord_eq]
  exact Gpio.restore_of_words fun f hf => restoreWord_wordRecord hf (gpioField g f)

/-- A CSR bank takes every register of a complete record (R136). -/
theorem CsrBank.restore_csrRecord (p : Params) (b : CsrBank) (regs : Vector Word 14) :
    CsrBank.restore p (csrRecord regs) b = some { b with regs := regs } := by
  have hwords : ∀ m : Fin 14,
      restoreWord p .csr (csrRecord regs) (.reg m) b.regs[m] = some regs[m] := by
    intro m
    rw [csrRecord_eq]
    exact restoreWord_wordRecord (reg_mem_persisted m) b.regs[m]
  rw [CsrBank.restore_eq_ofFn hwords]
  exact congrArg (fun r => some { b with regs := r }) Vector.ofFn_getElem

end devices

/-! ### The RESTORE request (R136) -/

section restores

variable {s : State} {k : Nat} {rec : Record}

theorem exec_restoreGpio_of_some {g g' : Gpio} (hg : s.gpios[k]? = some g)
    (h : Gpio.restore s.cfg rec g = some g') :
    exec (.restore ⟨.gpio, k⟩ rec) s =
      .next { s with gpios := s.gpios.set k g', reply := .done } := by
  refine (State.onGpio_of_some hg _).trans ?_
  rw [h, Option.map_some, State.modifyGpio_of_some hg]
  rfl

theorem exec_restoreCsr_of_some {b b' : CsrBank} (hb : s.csrs[k]? = some b)
    (h : CsrBank.restore s.cfg rec b = some b') :
    exec (.restore ⟨.csr, k⟩ rec) s =
      .next { s with csrs := s.csrs.set k b', reply := .done } := by
  refine (State.onCsr_of_some hb _).trans ?_
  rw [h, Option.map_some, State.modifyCsr_of_some hb]
  rfl

theorem exec_restoreButton_of_some {u : Button} {x : Bool} (hu : s.buttons[k]? = some u)
    (h : restoreLevel s.cfg .button rec u.lastLevel = some x) :
    exec (.restore ⟨.button, k⟩ rec) s =
      .next { s with buttons := s.buttons.set k { u with lastLevel := x }, reply := .done } := by
  refine (State.onButton_of_some hu _).trans ?_
  rw [Button.restore, h, Option.map_some, Option.map_some, State.modifyButton_of_some hu]
  rfl

theorem exec_restoreLed_of_some {l : Led} {x : Bool} (hl : s.leds[k]? = some l)
    (h : restoreLevel s.cfg .led rec l.lastLevel = some x) :
    exec (.restore ⟨.led, k⟩ rec) s =
      .next { s with leds := s.leds.set k { l with lastLevel := x }, reply := .done } := by
  refine (State.onLed_of_some hl _).trans ?_
  rw [Led.restore, h, Option.map_some, Option.map_some, State.modifyLed_of_some hl]
  rfl

end restores

/-- Settles O33: the record has every field, so each is taken from it. -/
theorem restoreTakesEveryFieldVerbatim : Obligations.RestoreTakesEveryFieldVerbatim := by
  unfold Obligations.RestoreTakesEveryFieldVerbatim
  intro k s
  exact ⟨fun g x hg => exec_restoreGpio_of_some hg (g.restore_gpioRecord _ x),
    fun b regs hb => exec_restoreCsr_of_some hb (b.restore_csrRecord _ regs),
    fun u x hu => exec_restoreButton_of_some hu (restoreLevel_of_level x u.lastLevel),
    fun l x hl => exec_restoreLed_of_some hl (restoreLevel_of_level x l.lastLevel)⟩

/-- Settles O34: the missing field has no new value, and one such field makes the record malformed. -/
theorem restoreRefusesAMissingField : Obligations.RestoreRefusesAMissingField := by
  unfold Obligations.RestoreRefusesAMissingField
  intro d rec f s hd hf habsent hlegacy
  obtain ⟨c, k⟩ := d
  cases c with
  | gpio =>
    obtain ⟨g, hg⟩ := (s.hasDevice_gpio k).mp hd
    refine (State.onGpio_of_some hg _).trans ?_
    rw [Gpio.restore_eq_none hf (restoreWord_eq_none habsent hlegacy)]
    rfl
  | csr =>
    obtain ⟨b, hb⟩ := (s.hasDevice_csr k).mp hd
    obtain ⟨m, _, rfl⟩ := List.mem_map.mp hf
    refine (State.onCsr_of_some hb _).trans ?_
    rw [CsrBank.restore_eq_none (restoreWord_eq_none habsent hlegacy)]
    rfl
  | button =>
    obtain ⟨u, hu⟩ := (s.hasDevice_button k).mp hd
    obtain rfl := List.mem_singleton.mp hf
    refine (State.onButton_of_some hu _).trans ?_
    rw [Button.restore, restoreLevel_eq_none habsent hlegacy]
    rfl
  | led =>
    obtain ⟨l, hl⟩ := (s.hasDevice_led k).mp hd
    obtain rfl := List.mem_singleton.mp hf
    refine (State.onLed_of_some hl _).trans ?_
    rw [Led.restore, restoreLevel_eq_none habsent hlegacy]
    rfl

/-- Settles O35: the new value of LEGACY_FIELD is the present one, that of the others the record's. -/
theorem restoreToleratesTheLegacyField : Obligations.RestoreToleratesTheLegacyField := by
  unfold Obligations.RestoreToleratesTheLegacyField
  intro k s f
  refine ⟨fun g x hg hlegacy => ?gpio, fun b regs hb hlegacy => ?csr,
    fun u x hu hlegacy => ?button, fun l x hl hlegacy => ?led⟩
  case gpio =>
    have hwords : ∀ f' ∈ persisted .gpio,
        restoreWord s.cfg .gpio (without f (gpioRecord x)) f' (gpioField g f') =
          some (gpioField (if f' = f then g else x) f') := by
      intro f' hf'
      rw [gpioRecord_eq, restoreWord_without hlegacy hf']
      exact congrArg some (apply_ite (gpioField · f') (f' = f) g x).symm
    exact ⟨_, _, exec_restoreGpio_of_some hg (Gpio.restore_of_words hwords), rfl, rfl, rfl, rfl,
      gpioField_withWords g _⟩
  case csr =>
    refine ⟨Vector.ofFn fun m => if f = .reg m then b.regs[m] else regs[m],
      fun m => Vector.getElem_ofFn ..,
      exec_restoreCsr_of_some hb (CsrBank.restore_eq_ofFn fun m => ?_)⟩
    rw [csrRecord_eq, restoreWord_without hlegacy (reg_mem_persisted m)]
    simp only [eq_comm, csrField]
  case button => exact exec_restoreButton_of_some hu (restoreLevel_without hlegacy x u.lastLevel)
  case led => exact exec_restoreLed_of_some hl (restoreLevel_without hlegacy x l.lastLevel)

/-! ### The SAVE request (R135) -/

section saves

variable {s : State} {k : Nat}

theorem decode_save {r : Request} {d : DevRef} (h : r.Presents 6#4 0#2 d 0#16) :
    decode r = .ok (.save d) := by
  rw [h.decode_save, decodeSave, if_pos h.argBits, h.dev_eq]

theorem exec_saveGpio_of_some {g : Gpio} (hg : s.gpios[k]? = some g) :
    exec (.save ⟨.gpio, k⟩) s = .next { s with reply := .saved (gpioRecord g) } :=
  State.onGpio_of_some hg _

theorem exec_saveCsr_of_some {b : CsrBank} (hb : s.csrs[k]? = some b) :
    exec (.save ⟨.csr, k⟩) s = .next { s with reply := .saved (csrRecord b.regs) } := by
  rw [← b.record_eq]
  exact State.onCsr_of_some hb _

theorem exec_saveButton_of_some {u : Button} (hu : s.buttons[k]? = some u) :
    exec (.save ⟨.button, k⟩) s =
      .next { s with reply := .saved [levelEntry s.cfg.snapLevelWidth u.lastLevel] } :=
  State.onButton_of_some hu _

theorem exec_saveLed_of_some {l : Led} (hl : s.leds[k]? = some l) :
    exec (.save ⟨.led, k⟩) s =
      .next { s with reply := .saved [levelEntry s.cfg.snapLevelWidth l.lastLevel] } :=
  State.onLed_of_some hl _

end saves

/-- Settles O32: the records are the devices' own, and a level of at least one bit holds 1 or 0. -/
theorem saveSuppliesTheFieldsInOrder : Obligations.SaveSuppliesTheFieldsInOrder := by
  unfold Obligations.SaveSuppliesTheFieldsInOrder
  intro k s
  exact ⟨fun r c hword hdev => decode_save ⟨hword, hdev⟩, fun g hg => exec_saveGpio_of_some hg,
    fun b hb => exec_saveCsr_of_some hb,
    fun u hu => ⟨_, rfl, rfl, fun hw => level_toNat hw u.lastLevel, exec_saveButton_of_some hu⟩,
    fun l hl => ⟨_, rfl, rfl, fun hw => level_toNat hw l.lastLevel, exec_saveLed_of_some hl⟩⟩

/-! ### Restoring what was saved (R135, R136) -/

section roundTrip

variable {s t : State} {rec : Record}

/-- A SAVE that answers looked its device up; only the reply is new. -/
theorem eq_answer_of_lookup {α : Type} {o : Option α} {out : α → Record} {r : Result} {e : Refusal}
    (hr : (∃ a, o = some a ∧ r = .next (s.answer (.saved (out a)))) ∨ (o = none ∧ r = .refused e))
    (h : r = .next t) (hrec : t.reply = .saved rec) :
    ∃ a, o = some a ∧ rec = out a ∧ t = s.answer (.saved rec) := by
  obtain ⟨a, ha, rfl⟩ | ⟨_, rfl⟩ := hr
  · cases h
    cases hrec
    exact ⟨a, ha, rfl, rfl⟩
  · cases h

/-- A saved level is restored as it is. -/
theorem restoreLevel_levelEntry {p : Params} (h : 1 ≤ p.snapLevelWidth) (c : DevClass) (b : Bool) :
    restoreLevel p c [levelEntry p.snapLevelWidth b] b = some b := by
  rw [levelEntry, restoreLevel_of_level, level_toNat h]
  cases b <;> rfl

end roundTrip

/-- Settles O36: every field of the record is the device's own value, so nothing is new. RESTORE does not
look at the reply that SAVE left, which the proof therefore forgets. -/
theorem restoreAfterSaveIsIdentity : Obligations.RestoreAfterSaveIsIdentity := by
  unfold Obligations.RestoreAfterSaveIsIdentity
  intro d s t rec hwf hsave hrec
  obtain ⟨_, hwidth⟩ := hwf
  obtain ⟨c, k⟩ := d
  cases c with
  | gpio =>
    obtain ⟨g, hg, rfl, rfl⟩ := eq_answer_of_lookup (s.onGpio_cases k _) hsave hrec
    generalize Reply.saved _ = rep
    have hg' : (s.answer rep).gpios[k]? = some g := hg
    rw [g.record_eq, exec_restoreGpio_of_some hg' (g.restore_gpioRecord _ g),
      set_of_getElem?_eq hg']
  | csr =>
    obtain ⟨b, hb, rfl, rfl⟩ := eq_answer_of_lookup (s.onCsr_cases k _) hsave hrec
    generalize Reply.saved _ = rep
    have hb' : (s.answer rep).csrs[k]? = some b := hb
    rw [b.record_eq, exec_restoreCsr_of_some hb' (b.restore_csrRecord _ b.regs),
      set_of_getElem?_eq hb']
  | button =>
    obtain ⟨u, hu, rfl, rfl⟩ := eq_answer_of_lookup (s.onButton_cases k _) hsave hrec
    generalize Reply.saved _ = rep
    have hu' : (s.answer rep).buttons[k]? = some u := hu
    rw [exec_restoreButton_of_some hu' (restoreLevel_levelEntry hwidth .button u.lastLevel),
      set_of_getElem?_eq hu']
  | led =>
    obtain ⟨l, hl, rfl, rfl⟩ := eq_answer_of_lookup (s.onLed_cases k _) hsave hrec
    generalize Reply.saved _ = rep
    have hl' : (s.answer rep).leds[k]? = some l := hl
    rw [exec_restoreLed_of_some hl' (restoreLevel_levelEntry hwidth .led l.lastLevel),
      set_of_getElem?_eq hl']

/-! ### A repeated ODR write (R138) -/

/-- Settles O48: the first ODR write leaves ODR at `Eff` and ODR_old = ODR, and the MODE write touches
neither, so the second has nothing to store and no pin to drive. -/
theorem repeatedOdrWriteEmitsNothing : Obligations.RepeatedOdrWriteEmitsNothing := by
  unfold Obligations.RepeatedOdrWriteEmitsNothing
  intro k v m s hd
  obtain ⟨g0, hg0⟩ := (s.hasDevice_gpio k).mp hd
  obtain ⟨_, _, t, _, ht, _⟩ := odrWriteRunsTheUpdateAlgorithm k v s g0 hg0
  obtain ⟨g, g', _, hg', hw, hcfg, _⟩ := gpioWrite_cases (r := .ODR) ht
  have hmode : exec (.gpioWrMode k m) t = _ := writeGpio_of_some hg' _
  refine ⟨_, (perform_cons ht _).trans (perform_cons hmode []), ?_⟩
  have hstore : g'.store t.cfg.narrowWrite .ODR v = g' := hcfg ▸ hw.store_eq_self
  have hodr : eff t.cfg.narrowWrite g'.odr v = g'.odr := congrArg Gpio.odr hstore
  refine exec_gpioWrite_of_settled (r := .ODR) (getElem?_set_of_some hg' _) ?_
    (fun _ => hw.shadow_agrees rfl) rfl
  exact congrArg (fun x => { g' with mode := eff t.cfg.narrowWrite g'.mode m, odr := x }) hodr

end Sys2Proof.Machine
end
